-- ==== Sys2Proof/Word.lean ====
section
/-! DEFINITION. The machine's words: bytes, 32-bit words and 128-bit blocks of four words
(`spec/00_scope.md` rule R7). -/

namespace Sys2Proof

/-- A byte, rule R7. -/
abbrev Byte := BitVec 8

/-- A 32-bit word, rule R7. -/
abbrev Word := BitVec 32

/-- A 128-bit value made of four words; `w0` is the most significant (rule R7, D24). -/
structure Block where
  w0 : Word
  w1 : Word
  w2 : Word
  w3 : Word
deriving DecidableEq, Repr, Inhabited

end Sys2Proof
end

