-- ==== Sys2Proof/Config.lean ====
section
/-! DEFINITION. What the spec leaves to the implementation: the parameters of `spec/00_scope.md` rule
R6, and the free values. The values of R6's default column are in `Machine/Parameters.lean`. -/

namespace Sys2Proof

/-- `KSIZE_FAIL_POLICY` (rules R6, R103; D10, OPEN): what a rejected `SET_KEY_SIZE` does to the
context. -/
inductive FailPolicy where
  /-- the context is exactly as before (the spec's default) -/
  | keep
  /-- the whole context becomes unset -/
  | clear
deriving DecidableEq, Repr

/-- The type of a half-round (`spec/41_round_engine.md` rules R75, R84, R85). -/
inductive HalfRound where
  | typeA
  | typeB
deriving DecidableEq, Repr

/-- `KS_ORDER` (rules R6, R95; D21): the half-round types of key-schedule steps 2, 4, 5. -/
inductive KsOrder where
  /-- `(A, B, A)`, the default and normative value -/
  | aba
  /-- `(B, A, B)`, the other permitted value -/
  | bab
deriving DecidableEq, Repr

/-- An 8x8 bit matrix by its rows 0 to 7; column 0 is the leftmost, most significant bit of a row, as
rules R60 and R63 print them. -/
abbrev BitMatrix := Vector Byte 8

/-- The host register offsets (rules R6, R37; D3), each as the slot number the port carries, bits 6:2 of
the offset (rule R40). The registers of an array follow each other from its offset. -/
structure Offsets where
  /-- `CMD` -/
  cmd : BitVec 5
  /-- `STATUS` -/
  status : BitVec 5
  /-- `RESULT` -/
  result : BitVec 5
  /-- `DIN[0]`, the first of four -/
  din : BitVec 5
  /-- `DOUT[0]`, the first of four -/
  dout : BitVec 5
  /-- `KEYBUF[0]`, the first of eight -/
  keybuf : BitVec 5
deriving DecidableEq, Repr

/-- The opcode numbers (rules R6, R48; D4): `OP` of each command. -/
structure Opcodes where
  setKeySize : BitVec 8
  getKeySize : BitVec 8
  setKey : BitVec 8
  setupEnc : BitVec 8
  setupDec : BitVec 8
  encrypt : BitVec 8
  decrypt : BitVec 8
  tblRead : BitVec 8
  rkRead : BitVec 8
deriving DecidableEq, Repr

/-- The `STATUS` layout (rules R6, R28; D6): the lowest bit of each field. -/
structure StatusLayout where
  /-- `ERR`, two bits -/
  err : Nat
  /-- `KEY` -/
  key : Nat
  /-- `ENC` -/
  enc : Nat
  /-- `DEC` -/
  dec : Nat
  /-- `KS`, two bits -/
  ks : Nat
deriving DecidableEq, Repr

/-- Rule R6's row "host register offsets, opcode numbers, STATUS layout". -/
structure HostInterface where
  offsets : Offsets
  opcodes : Opcodes
  status : StatusLayout
deriving DecidableEq, Repr

/-- The parameters of rule R6. State carries them, and no step changes them (notes/assumptions/4.md,
DESIGN CHOICE). `LAT_*` is timing and left out (notes/assumptions/13.md). -/
structure Config where
  /-- `KRK[0..2][0..3]` (rules R6, R13, R91) -/
  krk : Vector Block 3
  /-- `AFF_A` (rules R6, R13, R60) -/
  affA : BitMatrix
  /-- `AFF_B` (rules R6, R13, R63) -/
  affB : BitMatrix
  /-- `GEN` (rules R6, R56; D22) -/
  gen : Byte
  /-- `KS_ORDER` (rules R6, R95; D21) -/
  ksOrder : KsOrder
  /-- `KSIZE_FAIL_POLICY` (rules R6, R103; D10) -/
  ksizeFailPolicy : FailPolicy
  /-- the host register offsets, opcode numbers and `STATUS` layout (rules R6, R28, R37, R48; D3, D4,
  D6) -/
  host : HostInterface
deriving DecidableEq, Repr

/-- Free value: what `T` holds after the decryption key setup, which the rules leave open (rules R31,
R100; U13). Applied to State's counter `fresh`. notes/assumptions/8.md, DESIGN CHOICE, safe. -/
opaque Config.freeT : Nat → Block

/-- Free value: what `J` holds after the decryption key setup (rules R34, R100; U13). Applied to
State's counter `fresh`. notes/assumptions/8.md, DESIGN CHOICE, safe. -/
opaque Config.freeJ : Nat → BitVec 7

/-- Free value: the entries of `X1` that no entry of `S1` names, which a matrix in the place of `AFF_A`
can leave and to which rule R61 gives no value. A function of that matrix and the index.
notes/assumptions/19.md, DESIGN CHOICE, safe. -/
opaque Config.freeX1 : BitMatrix → Nat → Byte

/-- Free value: the entries of `X2` that no entry of `S2` names, for a matrix in the place of `AFF_B`
(rule R64). notes/assumptions/19.md, DESIGN CHOICE, safe. -/
opaque Config.freeX2 : BitMatrix → Nat → Byte

end Sys2Proof
end

