-- ==== Sys2Proof/Syntax.lean ====
section
/-! DEFINITION. The nine host commands of `spec/30_encoding.md` rule R48 as abstract syntax, and the
reasons a command word is illegal (rule R49). -/

namespace Sys2Proof

/-- The table a `TBL_READ` selects: `SEL` of rule R47. -/
inductive TableSel where
  | s1 | s2 | x1 | x2 | ts1 | ts2 | tx1 | tx2
deriving DecidableEq, Repr

/-- The schedule an `RK_READ` selects: `SCHED` of rule R47. -/
inductive Sched where
  | erk | drk
deriving DecidableEq, Repr

/-- One constructor per row of `spec/opcode_table.json`. `SIZE`, `LEN` and a schedule index are counts,
held as numbers; `WellFormed.lean` says which have an encoding. -/
inductive Instr where
  /-- `SET_KEY_SIZE size`, rule R103 -/
  | setKeySize (size : Nat)
  /-- `GET_KEY_SIZE`, rule R104 -/
  | getKeySize
  /-- `SET_KEY len`, rule R105 -/
  | setKey (len : Nat)
  /-- `SETUP_ENC`, rule R106 -/
  | setupEnc
  /-- `SETUP_DEC`, rule R107 -/
  | setupDec
  /-- `ENCRYPT`, rule R108 -/
  | encrypt
  /-- `DECRYPT`, rule R109 -/
  | decrypt
  /-- `TBL_READ table, idx`, rule R110 -/
  | tblRead (sel : TableSel) (idx : Byte)
  /-- `RK_READ sched, idx`, rule R111 -/
  | rkRead (sched : Sched) (idx : Nat)
deriving DecidableEq, Repr

/-- Why a command word is illegal, the four conditions of rule R49. Each raises `IllegalCommand`. -/
inductive Illegal where
  /-- `RSV != 0` -/
  | reservedField
  /-- `OP` is 0x00 or 0x0A..0xFF -/
  | reservedOpcode
  /-- the command takes no operand and `ARG != 0` -/
  | operandNotZero
  /-- a must-be-zero bit of `ARG` is 1 -/
  | argBitNotZero
deriving DecidableEq, Repr

end Sys2Proof
end

