-- ==== Sys2Proof/WellFormed.lean ====
section
/-! DEFINITION. Which instructions have an encoding: the operand ranges of `spec/30_encoding.md`
rule R47. -/

namespace Sys2Proof

/-- The operands fit their fields: `SIZE` and `LEN` are 16 bits, an `RK_READ` index is 7 bits
(rule R47). The other operands fit by their types. -/
def Instr.wellFormed : Instr → Bool
  | .setKeySize size => decide (size < 65536)
  | .getKeySize => true
  | .setKey len => decide (len < 65536)
  | .setupEnc => true
  | .setupDec => true
  | .encrypt => true
  | .decrypt => true
  | .tblRead _ _ => true
  | .rkRead _ idx => decide (idx < 128)

end Sys2Proof
end

