-- ==== Sys2Proof/Decode.lean ====
section
/-! DEFINITION. The command decoder of `spec/30_encoding.md` rule R53, total on all words, and the
encoder written from the formats of rules R46 to R48. The opcode numbers are parameters (rule R6);
`decode` and `encode` have those of rule R48. -/

namespace Sys2Proof

/-- `OP`, bits 31:24 of a command word (rule R46). -/
def opField (c : Word) : BitVec 8 := c.extractLsb' 24 8

/-- `RSV`, bits 23:16 (rule R46). -/
def rsvField (c : Word) : BitVec 8 := c.extractLsb' 16 8

/-- `ARG`, bits 15:0 (rule R46). -/
def argField (c : Word) : BitVec 16 := c.extractLsb' 0 16

/-- `SEL` values, rule R47. -/
def TableSel.ofCode (k : BitVec 3) : TableSel :=
  match k.toNat with
  | 0 => .s1
  | 1 => .s2
  | 2 => .x1
  | 3 => .x2
  | 4 => .ts1
  | 5 => .ts2
  | 6 => .tx1
  | _ => .tx2

/-- `SEL` values, rule R47. -/
def TableSel.code : TableSel → BitVec 3
  | .s1 => 0
  | .s2 => 1
  | .x1 => 2
  | .x2 => 3
  | .ts1 => 4
  | .ts2 => 5
  | .tx1 => 6
  | .tx2 => 7

/-- `SCHED` values: 0 = `ERK`, 1 = `DRK` (rule R47). -/
def Sched.ofCode (b : BitVec 1) : Sched := if b = 0 then .erk else .drk

/-- `SCHED` values: 0 = `ERK`, 1 = `DRK` (rule R47). -/
def Sched.code : Sched → BitVec 1
  | .erk => 0
  | .drk => 1

/-- A command that takes no operand: its `ARG` must be 0 (rules R47, R49). -/
def decodePlain (i : Instr) (arg : BitVec 16) : Except Illegal Instr :=
  if arg = 0 then .ok i else .error .operandNotZero

/-- `TBL_READ`: `ARG[15:11] = 0`, `SEL = ARG[10:8]`, `IDX = ARG[7:0]` (rules R47, R53). -/
def decodeTblRead (arg : BitVec 16) : Except Illegal Instr :=
  if arg.extractLsb' 11 5 = 0 then
    .ok (.tblRead (TableSel.ofCode (arg.extractLsb' 8 3)) (arg.extractLsb' 0 8))
  else .error .argBitNotZero

/-- `RK_READ`: `ARG[15:9] = 0`, `SCHED = ARG[8]`, `ARG[7] = 0`, `IDX = ARG[6:0]` (rules R47, R53). -/
def decodeRkRead (arg : BitVec 16) : Except Illegal Instr :=
  if arg.extractLsb' 9 7 = 0 ∧ arg.extractLsb' 7 1 = 0 then
    .ok (.rkRead (Sched.ofCode (arg.extractLsb' 8 1)) (arg.extractLsb' 0 7).toNat)
  else .error .argBitNotZero

/-- The opcode numbers of rule R48. -/
def Opcodes.default : Opcodes where
  setKeySize := 0x01
  getKeySize := 0x02
  setKey := 0x03
  setupEnc := 0x04
  setupDec := 0x05
  encrypt := 0x06
  decrypt := 0x07
  tblRead := 0x08
  rkRead := 0x09

/-- The nine opcode numbers in the order of rule R48. -/
def Opcodes.all (o : Opcodes) : List (BitVec 8) :=
  [o.setKeySize, o.getKeySize, o.setKey, o.setupEnc, o.setupDec, o.encrypt, o.decrypt, o.tblRead,
   o.rkRead]

/-- The decoding procedure of rule R53 for given opcode numbers. Of two commands with one number the
first in rule R48's order is taken (notes/assumptions/20.md, DESIGN CHOICE). -/
def decodeWith (o : Opcodes) (c : Word) : Except Illegal Instr :=
  let op := opField c
  let arg := argField c
  if rsvField c ≠ 0 then .error .reservedField
  else if op = o.setKeySize then .ok (.setKeySize arg.toNat)
  else if op = o.getKeySize then decodePlain .getKeySize arg
  else if op = o.setKey then .ok (.setKey arg.toNat)
  else if op = o.setupEnc then decodePlain .setupEnc arg
  else if op = o.setupDec then decodePlain .setupDec arg
  else if op = o.encrypt then decodePlain .encrypt arg
  else if op = o.decrypt then decodePlain .decrypt arg
  else if op = o.tblRead then decodeTblRead arg
  else if op = o.rkRead then decodeRkRead arg
  else .error .reservedOpcode

/-- The decoding procedure of rule R53 for the opcode map of rule R48. -/
def decode (c : Word) : Except Illegal Instr := decodeWith Opcodes.default c

/-- The host's question: the instruction the decoder reads from the bits `w`. A command is one 32-bit
word on the port, whose bit 0 is the least significant (rules R7, R46). -/
def decodeTableWord (nbits w : Nat) : Option Instr :=
  match decode (BitVec.ofNat 32 (w % 2 ^ nbits)) with
  | .ok i => some i
  | .error _ => none

/-- A command word from its opcode and operand; `RSV` is 0 (rule R46). -/
def commandWord (op : BitVec 8) (arg : BitVec 16) : Word := op ++ (0 : BitVec 8) ++ arg

/-- `OP` of each command (rules R6, R48). -/
def Instr.opcode (o : Opcodes) : Instr → BitVec 8
  | .setKeySize _ => o.setKeySize
  | .getKeySize => o.getKeySize
  | .setKey _ => o.setKey
  | .setupEnc => o.setupEnc
  | .setupDec => o.setupDec
  | .encrypt => o.encrypt
  | .decrypt => o.decrypt
  | .tblRead _ _ => o.tblRead
  | .rkRead _ _ => o.rkRead

/-- `ARG` of each command (rule R47). An operand too large for its field is truncated; `wellFormed`
rules it out. -/
def Instr.argBits : Instr → BitVec 16
  | .setKeySize size => BitVec.ofNat 16 size
  | .getKeySize => 0
  | .setKey len => BitVec.ofNat 16 len
  | .setupEnc => 0
  | .setupDec => 0
  | .encrypt => 0
  | .decrypt => 0
  | .tblRead sel idx => (0 : BitVec 5) ++ sel.code ++ idx
  | .rkRead sched idx => (0 : BitVec 7) ++ sched.code ++ (0 : BitVec 1) ++ BitVec.ofNat 7 idx

/-- The command word of an instruction for given opcode numbers (rules R6, R46, R47). -/
def encodeWith (o : Opcodes) (i : Instr) : Word := commandWord (i.opcode o) i.argBits

/-- The command word of an instruction in the opcode map of rule R48. -/
def encode (i : Instr) : Word := encodeWith Opcodes.default i

/-- One row of the opcode map: the mnemonic with its mask and match (rule R48). -/
structure OpcodeRow where
  mnemonic : String
  mask : Word
  pattern : Word
deriving DecidableEq, Repr

/-- The opcode map of rule R48, masks and matches as printed. -/
def opcodeRows : List OpcodeRow := [
  ⟨"SET_KEY_SIZE", 0xFFFF0000, 0x01000000⟩,
  ⟨"GET_KEY_SIZE", 0xFFFFFFFF, 0x02000000⟩,
  ⟨"SET_KEY", 0xFFFF0000, 0x03000000⟩,
  ⟨"SETUP_ENC", 0xFFFFFFFF, 0x04000000⟩,
  ⟨"SETUP_DEC", 0xFFFFFFFF, 0x05000000⟩,
  ⟨"ENCRYPT", 0xFFFFFFFF, 0x06000000⟩,
  ⟨"DECRYPT", 0xFFFFFFFF, 0x07000000⟩,
  ⟨"TBL_READ", 0xFFFFF800, 0x08000000⟩,
  ⟨"RK_READ", 0xFFFFFE80, 0x09000000⟩]

/-- A word meets a row of the opcode map. -/
def OpcodeRow.selects (r : OpcodeRow) (c : Word) : Bool := c &&& r.mask == r.pattern

/-- The mnemonic of each command (rule R48). -/
def Instr.mnemonic : Instr → String
  | .setKeySize _ => "SET_KEY_SIZE"
  | .getKeySize => "GET_KEY_SIZE"
  | .setKey _ => "SET_KEY"
  | .setupEnc => "SETUP_ENC"
  | .setupDec => "SETUP_DEC"
  | .encrypt => "ENCRYPT"
  | .decrypt => "DECRYPT"
  | .tblRead _ _ => "TBL_READ"
  | .rkRead _ _ => "RK_READ"

/-- The four conditions of rule R49, written on the word's fields: the word is illegal when any of
them holds. -/
def illegalWord (c : Word) : Bool :=
  let op := opField c
  let arg := argField c
  op == 0x00 || decide (0x0A ≤ op.toNat)
    || rsvField c != 0
    || (op == 0x02 || op == 0x04 || op == 0x05 || op == 0x06 || op == 0x07) && arg != 0
    || op == 0x08 && arg.extractLsb' 11 5 != 0
    || op == 0x09 && (arg.extractLsb' 9 7 != 0 || arg.extractLsb' 7 1 != 0)

end Sys2Proof
end

