-- ==== Sys2Proof/Machine/KeySize.lean ====
section
/-! DEFINITION. The declared key size and what follows from it (`spec/10_state.md` rules R14, R15,
`spec/00_scope.md` rule R5). -/

namespace Sys2Proof.Machine

/-- `KSIZE` as the four-valued type rule R14 permits; `unset` is the value 0. -/
inductive KeySize where
  | unset
  | k128
  | k192
  | k256
deriving DecidableEq, Repr

/-- The value of the `KSIZE` register (rule R14). -/
def KeySize.bits : KeySize → Nat
  | .unset => 0
  | .k128 => 128
  | .k192 => 192
  | .k256 => 256

/-- The sizes `SET_KEY_SIZE` accepts (rule R103). -/
def KeySize.ofSize (size : Nat) : Option KeySize :=
  if size = 128 then some .k128
  else if size = 192 then some .k192
  else if size = 256 then some .k256
  else none

/-- `NR = ROUNDS(KSIZE)`, 0 when unset (rule R15). -/
def KeySize.rounds : KeySize → Nat
  | .unset => 0
  | .k128 => 12
  | .k192 => 14
  | .k256 => 16

/-- `RKWORDS = 4 * (NR + 1)` (rules R5, R15). -/
def KeySize.rkWords (k : KeySize) : Nat := 4 * (k.rounds + 1)

/-- The code of `KSIZE` in `STATUS.KS` (rule R28). -/
def KeySize.code : KeySize → BitVec 2
  | .unset => 0
  | .k128 => 1
  | .k192 => 2
  | .k256 => 3

end Sys2Proof.Machine
end

