-- ==== Sys2Proof/Machine/Bytes.lean ====
section
/-! DEFINITION. Byte positions of a word, big-endian packing and word-wise operations on blocks
(`spec/00_scope.md` rule R7, `spec/20_memory.md` rule R39). -/

namespace Sys2Proof

/-- The array of `n` cells whose cell `i` holds `f i`. -/
def tabulate {α : Type} (n : Nat) (f : Nat → α) : Vector α n := ⟨⟨(List.range n).map f⟩, by simp⟩

/-- `B3(w) = w[31:24]`, the most significant, first byte (rule R7). -/
def byte3 (w : Word) : Byte := w.extractLsb' 24 8

/-- `B2(w) = w[23:16]` (rule R7). -/
def byte2 (w : Word) : Byte := w.extractLsb' 16 8

/-- `B1(w) = w[15:8]` (rule R7). -/
def byte1 (w : Word) : Byte := w.extractLsb' 8 8

/-- `B0(w) = w[7:0]` (rule R7). -/
def byte0 (w : Word) : Byte := w.extractLsb' 0 8

/-- `be32(b0, b1, b2, b3)`: the word of four bytes given in memory order (rule R7). -/
def be32 (b0 b1 b2 b3 : Byte) : Word := b0 ++ b1 ++ b2 ++ b3

/-- `zext_32(b)` (rule R7). -/
def zext32 (b : Byte) : Word := b.setWidth 32

/-- The all-zero block. -/
def Block.zero : Block := ⟨0, 0, 0, 0⟩

/-- Word `i` of a block, `i = 0 .. 3`. -/
def Block.word (b : Block) (i : Nat) : Word :=
  match i with
  | 0 => b.w0
  | 1 => b.w1
  | 2 => b.w2
  | _ => b.w3

/-- A block with word `i` replaced, `i = 0 .. 3`. -/
def Block.setWord (b : Block) (i : Nat) (v : Word) : Block :=
  match i with
  | 0 => { b with w0 := v }
  | 1 => { b with w1 := v }
  | 2 => { b with w2 := v }
  | _ => { b with w3 := v }

/-- XOR of two blocks, word by word. -/
def Block.xor (x y : Block) : Block :=
  ⟨x.w0 ^^^ y.w0, x.w1 ^^^ y.w1, x.w2 ^^^ y.w2, x.w3 ^^^ y.w3⟩

/-- One function applied to each word. -/
def Block.map (f : Word → Word) (x : Block) : Block := ⟨f x.w0, f x.w1, f x.w2, f x.w3⟩

/-- `bytes_be` of the four words in order: the sixteen bytes in memory order (rules R7, R39). -/
def Block.bytes (x : Block) : Vector Byte 16 :=
  #v[byte3 x.w0, byte2 x.w0, byte1 x.w0, byte0 x.w0,
     byte3 x.w1, byte2 x.w1, byte1 x.w1, byte0 x.w1,
     byte3 x.w2, byte2 x.w2, byte1 x.w2, byte0 x.w2,
     byte3 x.w3, byte2 x.w3, byte1 x.w3, byte0 x.w3]

/-- Sixteen bytes as four big-endian words (rules R24, R39). -/
def Block.ofBytes (v : Vector Byte 16) : Block :=
  ⟨be32 v[0] v[1] v[2] v[3], be32 v[4] v[5] v[6] v[7],
   be32 v[8] v[9] v[10] v[11], be32 v[12] v[13] v[14] v[15]⟩

end Sys2Proof
end

