-- ==== Sys2Proof/Machine/Parameters.lean ====
section
/-! DEFINITION. The default column of `spec/00_scope.md` rule R6: the value of every parameter that all
vectors of the spec use. -/

namespace Sys2Proof.Machine

/-- `KRK[0..2]`, rule R91. -/
def krk : Vector Block 3 := #v[
  ⟨0x517CC1B7, 0x27220A94, 0xFE13ABE8, 0xFA9A6EE0⟩,
  ⟨0x6DB14ACC, 0x9E21C820, 0xFF28B1D5, 0xEF5DE2B0⟩,
  ⟨0xDB92371D, 0x2126E970, 0x03249775, 0x04E8C90E⟩]

/-- The matrix `AFF_A`, rows `A[0]` to `A[7]` (rule R60). -/
def affA : BitMatrix := #v[
  0b10001111,
  0b11000111,
  0b11100011,
  0b11110001,
  0b11111000,
  0b01111100,
  0b00111110,
  0b00011111]

/-- The matrix `AFF_B`, rows `B[0]` to `B[7]` (rule R63). -/
def affB : BitMatrix := #v[
  0b01011110,
  0b00111101,
  0b11010111,
  0b10011101,
  0b00101100,
  0b10000001,
  0b01011101,
  0b11010011]

/-- `GEN`, the generator element (rules R6, R56; D22). -/
def gen : Byte := 0x03

end Sys2Proof.Machine

namespace Sys2Proof

/-- The slot number of a byte offset: its bits 6:2 (rule R40). -/
def slotOf (off : BitVec 7) : BitVec 5 := off.extractLsb' 2 5

/-- The register offsets of rule R37: `CMD` 0x00, `STATUS` 0x04, `RESULT` 0x08, `DIN` 0x10, `DOUT` 0x20,
`KEYBUF` 0x40. -/
def Offsets.default : Offsets where
  cmd := slotOf 0x00
  status := slotOf 0x04
  result := slotOf 0x08
  din := slotOf 0x10
  dout := slotOf 0x20
  keybuf := slotOf 0x40

/-- The `STATUS` layout of rule R28: `ERR` in bits 1:0, `KEY` 2, `ENC` 3, `DEC` 4, `KS` 6:5. -/
def StatusLayout.default : StatusLayout where
  err := 0
  key := 2
  enc := 3
  dec := 4
  ks := 5

/-- The host interface of rules R28, R37 and R48. -/
def HostInterface.default : HostInterface where
  offsets := Offsets.default
  opcodes := Opcodes.default
  status := StatusLayout.default

/-- The default column of rule R6. -/
def Config.default : Config where
  krk := Machine.krk
  affA := Machine.affA
  affB := Machine.affB
  gen := Machine.gen
  ksOrder := .aba
  ksizeFailPolicy := .keep
  host := HostInterface.default

end Sys2Proof
end

