-- ==== Sys2Proof/Machine/TableBuilder.lean ====
section
/-! DEFINITION. The Table Builder (`spec/40_table_builder.md`): GF(2^8) arithmetic, the exp/log
generator, the S-boxes and the fused tables, each from its rule. -/

namespace Sys2Proof.Machine

/-- The generator and lookup tables (`spec/10_state.md` rules R10 to R12). -/
structure Tables where
  exp : Vector Byte 256
  log : Vector Byte 256
  s1 : Vector Byte 256
  s2 : Vector Byte 256
  x1 : Vector Byte 256
  x2 : Vector Byte 256
  ts1 : Vector Word 256
  ts2 : Vector Word 256
  tx1 : Vector Word 256
  tx2 : Vector Word 256
deriving DecidableEq, Repr

/-- A table read: every byte is a valid index (rules R36, R68, R69). -/
def look {α : Type} (t : Vector α 256) (i : Byte) : α := t[i.toNat]'i.isLt

/-- `POLY` = 0x11B, x^8 + x^4 + x^3 + x + 1, in nine bits (rules R5, R55). -/
def poly : BitVec 9 := 0x11B

/-- One step of the multiplication loop: `aa` times x, reduced (rule R55). -/
def gfDouble (aa : BitVec 9) : BitVec 9 :=
  if (aa <<< 1).getLsbD 8 then (aa <<< 1) ^^^ poly else aa <<< 1

/-- The loop of `GF_MUL` from bit `n` on, `k` rounds left: `r` the sum so far, `aa` the multiple
(rule R55). -/
def gfMulLoop (b : Byte) : (k : Nat) → (n : Nat) → BitVec 9 → BitVec 9 → BitVec 9
  | 0, _, r, _ => r
  | k + 1, n, r, aa => gfMulLoop b k (n + 1) (if b.getLsbD n then r ^^^ aa else r) (gfDouble aa)

/-- `GF_MUL(a, b)`, rule R55. -/
def gfMul (a b : Byte) : Byte := (gfMulLoop b 8 0 0 (a.setWidth 9)).setWidth 8

/-- `EXP[i] = GEN^i` by the recurrence of rule R56. -/
def expAt (g : Byte) : Nat → Byte
  | 0 => 1
  | n + 1 => gfMul (expAt g n) g

/-- The recurrence of rule R56 for `GEN = 0x03`, which needs no multiplier. -/
def expStepShift (e : Byte) : Byte :=
  if (((e.setWidth 9 : BitVec 9) <<< 1) ^^^ e.setWidth 9).getLsbD 8 then
    ((((e.setWidth 9 : BitVec 9) <<< 1) ^^^ e.setWidth 9) ^^^ poly).setWidth 8
  else (((e.setWidth 9 : BitVec 9) <<< 1) ^^^ e.setWidth 9).setWidth 8

/-- The `EXP` table, rule R56. -/
def buildExp (g : Byte) : Vector Byte 256 := tabulate 256 (expAt g)

/-- The `LOG` table: all entries 0, then `LOG[EXP[i]] = i` for `i` in 1 .. 254 (rule R57). -/
def buildLog (exp : Vector Byte 256) : Vector Byte 256 :=
  (List.range' 1 254).foldl
    (fun log i => log.setIfInBounds (look exp (BitVec.ofNat 8 i)).toNat (BitVec.ofNat 8 i))
    (tabulate 256 fun _ => 0)

/-- `INV(i)`, rule R59. -/
def inv (exp log : Vector Byte 256) (i : Byte) : Byte :=
  if i = 0 then 0 else look exp (BitVec.ofNat 8 (255 - (look log i).toNat))

/-- `POW247(i)`, rule R62. -/
def pow247 (exp log : Vector Byte 256) (i : Byte) : Byte :=
  if i = 0 then 0 else look exp (BitVec.ofNat 8 ((247 * (look log i).toNat) % 255))

/-- Entry (row, column) of a bit matrix, row and column below 8. -/
def matrixBit (m : BitMatrix) (row col : Nat) : Bool := (m[row]?.getD 0).getLsbD (7 - col)

/-- The inner loop of an affine transform: XOR over `k` of the matrix bits whose input bit is 1. -/
def affineBit (inBit : Nat → Bool) (mBit : Nat → Bool) : Bool :=
  (List.range 8).foldl (fun s k => if inBit k then s ^^ mBit k else s) false

/-- The outer loop `t = (t << 1) ^ s`: the bit of round `j` ends as result bit `7 - j`. -/
def affineByte (bit : Nat → Bool) : Byte :=
  (List.range 8).foldl (fun t j => (t <<< 1) ^^^ BitVec.ofNat 8 (bit j).toNat) 0

/-- `AFFINE_A(p)` for the matrix `a` in the place of `AFF_A`, rule R60. -/
def affineA (a : BitMatrix) (p : Byte) : Byte :=
  affineByte fun j => affineBit (fun k => p.getLsbD (7 - k)) (fun k => matrixBit a k j)

/-- `AFFINE_B(p)` for the matrix `b` in the place of `AFF_B`, rule R63. -/
def affineB (b : BitMatrix) (p : Byte) : Byte :=
  affineByte fun j => affineBit (fun k => p.getLsbD k) (fun k => matrixBit b (7 - j) k)

/-- `C1`, the constant of `S1` (rules R5, R61). -/
def c1 : Byte := 0x63

/-- `C2`, the constant of `S2` (rules R5, R64). -/
def c2 : Byte := 0xE2

/-- `S1`, rule R61. -/
def buildS1 (a : BitMatrix) (exp log : Vector Byte 256) : Vector Byte 256 :=
  tabulate 256 fun i => affineA a (inv exp log (BitVec.ofNat 8 i)) ^^^ c1

/-- `S2`, rule R64. -/
def buildS2 (b : BitMatrix) (exp log : Vector Byte 256) : Vector Byte 256 :=
  tabulate 256 fun i => affineB b (pow247 exp log (BitVec.ofNat 8 i)) ^^^ c2

/-- The inverse table of an S-box, `X[S[i]] <- i` for `i` in 0 .. 255 (rules R61, R64). With the default
matrices that writes every entry; an entry it does not write has no stated value, and `unwritten` gives
it (notes/assumptions/19.md, DESIGN CHOICE). -/
def buildInverse (unwritten : Nat → Byte) (s : Vector Byte 256) : Vector Byte 256 :=
  (List.range 256).foldl
    (fun x i => x.setIfInBounds (look s (BitVec.ofNat 8 i)).toNat (BitVec.ofNat 8 i))
    (tabulate 256 unwritten)

/-- The lane multipliers, rule R66. -/
def mulTS1 : Word := 0x00010101

/-- The lane multipliers, rule R66. -/
def mulTS2 : Word := 0x01000101

/-- The lane multipliers, rule R66. -/
def mulTX1 : Word := 0x01010001

/-- The lane multipliers, rule R66. -/
def mulTX2 : Word := 0x01010100

/-- A fused table: the source byte times the table's multiplier, truncated to 32 bits (rules R66,
R67). -/
def fusedTable (m : Word) (s : Vector Byte 256) : Vector Word 256 :=
  tabulate 256 fun i => m * zext32 (look s (BitVec.ofNat 8 i))

/-- `TABLE_BUILD` for the parameters `GEN`, `AFF_A` and `AFF_B` (rules R6, R54). -/
def tableBuild (cfg : Config) : Tables :=
  let exp := buildExp cfg.gen
  let log := buildLog exp
  let s1 := buildS1 cfg.affA exp log
  let s2 := buildS2 cfg.affB exp log
  let x1 := buildInverse (Config.freeX1 cfg.affA) s1
  let x2 := buildInverse (Config.freeX2 cfg.affB) s2
  { exp := exp, log := log, s1 := s1, s2 := s2, x1 := x1, x2 := x2
    ts1 := fusedTable mulTS1 s1
    ts2 := fusedTable mulTS2 s2
    tx1 := fusedTable mulTX1 x1
    tx2 := fusedTable mulTX2 x2 }

end Sys2Proof.Machine
end

