-- ==== Sys2Proof/Machine/RoundEngine.lean ====
section
/-! DEFINITION. The Round Engine (`spec/41_round_engine.md`): key add, substitution layer, diffusion,
half-rounds, output transformation and the whole block operation. Every function takes the lookup
tables it reads. -/

namespace Sys2Proof.Machine

/-- `LOAD(in)`: sixteen bytes as four big-endian words (rule R71). -/
def load (input : Vector Byte 16) : Block := Block.ofBytes input

/-- `KA(t, k)`, key add (rule R72). -/
def ka (t k : Block) : Block := t.xor k

/-- `SL_A(w)`, rule R73. -/
def slA (tb : Tables) (w : Word) : Word :=
  look tb.ts1 (byte3 w) ^^^ look tb.ts2 (byte2 w) ^^^ look tb.tx1 (byte1 w) ^^^ look tb.tx2 (byte0 w)

/-- `SL_B(w)`, rule R74. -/
def slB (tb : Tables) (w : Word) : Word :=
  look tb.tx1 (byte3 w) ^^^ look tb.tx2 (byte2 w) ^^^ look tb.ts1 (byte1 w) ^^^ look tb.ts2 (byte0 w)

/-- The substitution stage of either type; the type selects the tables (rule R75). -/
def sl (tb : Tables) : HalfRound → Word → Word
  | .typeA => slA tb
  | .typeB => slB tb

/-- `MIX(t)`: the six assignments in order, each with the current values (rule R76). -/
def mix (t : Block) : Block :=
  let t1 := t.w1 ^^^ t.w2
  let t2 := t.w2 ^^^ t.w3
  let t0 := t.w0 ^^^ t1
  let t3 := t.w3 ^^^ t1
  let t2 := t2 ^^^ t0
  let t1 := t1 ^^^ t2
  ⟨t0, t1, t2, t3⟩

/-- `BADC(w)`, rule R77. -/
def badc (w : Word) : Word := ((w <<< 8) &&& 0xFF00FF00) ^^^ ((w >>> 8) &&& 0x00FF00FF)

/-- `CDAB(w)`, rule R78. -/
def cdab (w : Word) : Word := ((w <<< 16) &&& 0xFFFF0000) ^^^ ((w >>> 16) &&& 0x0000FFFF)

/-- `DCBA(w)`, rule R79. -/
def dcba (w : Word) : Word :=
  ((w &&& 0x000000FF) <<< 24) ^^^ ((w &&& 0x0000FF00) <<< 8)
    ^^^ ((w &&& 0x00FF0000) >>> 8) ^^^ ((w &&& 0xFF000000) >>> 24)

/-- `BL_A(t)`, rule R80. -/
def blA (t : Block) : Block := ⟨t.w0, badc t.w1, cdab t.w2, dcba t.w3⟩

/-- `BL_B(t)`, rule R81. -/
def blB (t : Block) : Block := ⟨cdab t.w0, dcba t.w1, t.w2, badc t.w3⟩

/-- `P_A(t)`, rule R82. -/
def pA (t : Block) : Block := mix (blA (mix t))

/-- `P_B(t)`, rule R83. -/
def pB (t : Block) : Block := mix (blB (mix t))

/-- `FA(t, k)`, the Type A half-round (rule R84). -/
def fA (tb : Tables) (t k : Block) : Block := pA ((ka t k).map (slA tb))

/-- `FB(t, k)`, the Type B half-round (rule R85). -/
def fB (tb : Tables) (t k : Block) : Block := pB ((ka t k).map (slB tb))

/-- The half-round of a given type. -/
def halfRound (tb : Tables) : HalfRound → Block → Block → Block
  | .typeA => fA tb
  | .typeB => fB tb

/-- `LMIX(w)`, rule R86. -/
def lmix (w : Word) : Word :=
  mulTS1 * zext32 (byte3 w) ^^^ mulTS2 * zext32 (byte2 w)
    ^^^ mulTX1 * zext32 (byte1 w) ^^^ mulTX2 * zext32 (byte0 w)

/-- `DIFF(b)`, rule R87. -/
def diff (b : Block) : Block := pA (b.map lmix)

/-- `OUT(t, ka, kb)`, the output transformation: the plain S-boxes `X1, X2, S1, S2` applied to each
word most significant byte first, each byte XORed with the byte of the final key group (rule R88). -/
def outTransform (tb : Tables) (t k1 k2 : Block) : Vector Byte 16 :=
  let u := t.xor k1
  #v[look tb.x1 (byte3 u.w0) ^^^ byte3 k2.w0, look tb.x2 (byte2 u.w0) ^^^ byte2 k2.w0,
     look tb.s1 (byte1 u.w0) ^^^ byte1 k2.w0, look tb.s2 (byte0 u.w0) ^^^ byte0 k2.w0,
     look tb.x1 (byte3 u.w1) ^^^ byte3 k2.w1, look tb.x2 (byte2 u.w1) ^^^ byte2 k2.w1,
     look tb.s1 (byte1 u.w1) ^^^ byte1 k2.w1, look tb.s2 (byte0 u.w1) ^^^ byte0 k2.w1,
     look tb.x1 (byte3 u.w2) ^^^ byte3 k2.w2, look tb.x2 (byte2 u.w2) ^^^ byte2 k2.w2,
     look tb.s1 (byte1 u.w2) ^^^ byte1 k2.w2, look tb.s2 (byte0 u.w2) ^^^ byte0 k2.w2,
     look tb.x1 (byte3 u.w3) ^^^ byte3 k2.w3, look tb.x2 (byte2 u.w3) ^^^ byte2 k2.w3,
     look tb.s1 (byte1 u.w3) ^^^ byte1 k2.w3, look tb.s2 (byte0 u.w3) ^^^ byte0 k2.w3]

/-- A schedule word. The sequencer forms indices below 68 only (rule R36); beyond them the value is 0
and no rule reads it. -/
def rkWord (rk : Vector Word 68) (i : Nat) : Word := rk[i]?.getD 0

/-- The round-key group that starts at word `j` (rule R72). -/
def rkGroup (rk : Vector Word 68) (j : Nat) : Block :=
  ⟨rkWord rk j, rkWord rk (j + 1), rkWord rk (j + 2), rkWord rk (j + 3)⟩

/-- What `CRYPT` leaves: the output bytes and the working registers `T` and `J` (rule R89). -/
structure Crypted where
  out : Vector Byte 16
  t : Block
  j : Nat
deriving DecidableEq, Repr

/-- The main loop of `CRYPT`: `n` iterations of a Type A then a Type B half-round, from state `t` and
schedule index `j` (rule R89). -/
def cryptLoop (tb : Tables) (rk : Vector Word 68) : (n : Nat) → Block → Nat → Block × Nat
  | 0, t, j => (t, j)
  | n + 1, t, j =>
    cryptLoop tb rk n (fB tb (fA tb t (rkGroup rk j)) (rkGroup rk (j + 4))) (j + 8)

/-- `CRYPT(in, rk, R)`, the whole block operation (rule R89). -/
def crypt (tb : Tables) (input : Vector Byte 16) (rk : Vector Word 68) (r : Nat) : Crypted :=
  let loop := cryptLoop tb rk (r / 2 - 1) (load input) 0
  let t := fA tb loop.1 (rkGroup rk loop.2)
  let j := loop.2 + 4
  { out := outTransform tb t (rkGroup rk j) (rkGroup rk (j + 4)), t := t, j := j + 8 }

end Sys2Proof.Machine
end

