-- ==== Sys2Proof/Machine/KeyScheduler.lean ====
section
/-! DEFINITION. The Key Scheduler (`spec/42_key_scheduler.md`): constants, key split, state vectors,
round-key generation and the decryption derivation. -/

namespace Sys2Proof.Machine

/-- `KRK[q]` of the parameter `KRK` (rules R6, R91). `Q` is 0, 1 or 2 (rule R33). -/
def krkSet (table : Vector Block 3) (q : BitVec 2) : Block := table[q.toNat]?.getD Block.zero

/-- `W[0]`: the first sixteen key bytes as big-endian words (rule R92). -/
def keyLeft (mk : Vector Byte 32) : Block :=
  ⟨be32 mk[0] mk[1] mk[2] mk[3], be32 mk[4] mk[5] mk[6] mk[7],
   be32 mk[8] mk[9] mk[10] mk[11], be32 mk[12] mk[13] mk[14] mk[15]⟩

/-- `KR`: key bytes 16 .. 31 as far as the key size has them, zero-padded (rule R92). The key
scheduler runs with a size set only; unset reads no byte. -/
def keyRight (mk : Vector Byte 32) : KeySize → Block
  | .unset => Block.zero
  | .k128 => Block.zero
  | .k192 => ⟨be32 mk[16] mk[17] mk[18] mk[19], be32 mk[20] mk[21] mk[22] mk[23], 0, 0⟩
  | .k256 =>
    ⟨be32 mk[16] mk[17] mk[18] mk[19], be32 mk[20] mk[21] mk[22] mk[23],
     be32 mk[24] mk[25] mk[26] mk[27], be32 mk[28] mk[29] mk[30] mk[31]⟩

/-- `Q0(KSIZE) = (KSIZE - 128) / 64`, rule R93. -/
def q0 (k : KeySize) : BitVec 2 := BitVec.ofNat 2 ((k.bits - 128) / 64)

/-- `(Q + 1) mod 3`, rule R94. -/
def nextQ (q : BitVec 2) : BitVec 2 := BitVec.ofNat 2 ((q.toNat + 1) % 3)

/-- The half-round types `(X, Y, Z)` of the three steps (rule R95). -/
def ksTypes : KsOrder → HalfRound × HalfRound × HalfRound
  | .aba => (.typeA, .typeB, .typeA)
  | .bab => (.typeB, .typeA, .typeB)

/-- The four state vectors with the working registers `Q` and `T` as the steps leave them
(rule R94). -/
structure KeyVectors where
  w : Vector Block 4
  q : BitVec 2
  t : Block
deriving DecidableEq, Repr

/-- The three state-vector steps of rule R94. `T` ends as the last half-round's result, since a
half-round writes it (rule R84). -/
def keyVectors (tb : Tables) (cfg : Config) (mk : Vector Byte 32) (k : KeySize) : KeyVectors :=
  let qa := q0 k
  let qb := nextQ qa
  let qc := nextQ qb
  let w0 := keyLeft mk
  let w1 := (halfRound tb (ksTypes cfg.ksOrder).1 w0 (krkSet cfg.krk qa)).xor (keyRight mk k)
  let w2 := (halfRound tb (ksTypes cfg.ksOrder).2.1 w1 (krkSet cfg.krk qb)).xor w0
  let t := halfRound tb (ksTypes cfg.ksOrder).2.2 w2 (krkSet cfg.krk qc)
  { w := #v[w0, w1, w2, t.xor w1], q := qc, t := t }

/-- A block as one 128-bit number, word 0 most significant (rules R7, R96). -/
def block128 (y : Block) : BitVec 128 := y.w0 ++ y.w1 ++ y.w2 ++ y.w3

/-- A 128-bit number split into words, most significant first (rule R96). -/
def blockOf128 (v : BitVec 128) : Block :=
  ⟨v.extractLsb' 96 32, v.extractLsb' 64 32, v.extractLsb' 32 32, v.extractLsb' 0 32⟩

/-- `ROR128(y, n)`, `0 < n < 128` (rule R96). -/
def ror128 (y : Block) (n : Nat) : Block :=
  blockOf128 ((block128 y >>> n) ||| (block128 y <<< (128 - n)))

/-- `GSRK(x, y, n)`, rule R97. -/
def gsrk (x y : Block) (n : Nat) : Block := x.xor (ror128 y n)

/-- The rotation amounts `ROT` (rule R98). -/
def rotAmount (n : Nat) : Nat :=
  match n with
  | 0 => 19
  | 1 => 31
  | 2 => 67
  | 3 => 97
  | _ => 109

/-- A state vector by its index 0 .. 3. -/
def keyVector (w : Vector Block 4) (n : Nat) : Block := w[n]?.getD Block.zero

/-- Group `g` of the encryption schedule, rule R98. -/
def encGroup (w : Vector Block 4) (g : Nat) : Block :=
  gsrk (keyVector w (g % 4)) (keyVector w ((g + 1) % 4)) (rotAmount (g / 4))

/-- `ENC_KEYS`: groups `0 .. NR` written to words `0 .. 4*NR+3`; the other words of the storage are
not written (rules R20, R98, R99). -/
def encKeys (w : Vector Block 4) (k : KeySize) (old : Vector Word 68) : Vector Word 68 :=
  tabulate 68 fun i =>
    if i < k.rkWords then (encGroup w (i / 4)).word (i % 4) else rkWord old i

/-- A block of the schedule under derivation, by its group index. -/
def groupAt (d : List Block) (g : Nat) : Block := d.getD g Block.zero

/-- Steps 2 and 3 of the decryption derivation: the indices `a` and `z` converge, the two blocks are
diffused and cross-assigned, and a middle block is diffused (rule R100). The first argument bounds
the number of rounds. -/
def decLoop : (fuel : Nat) → (a z : Nat) → List Block → List Block
  | 0, _, _, d => d
  | fuel + 1, a, z, d =>
    if a < z then
      decLoop fuel (a + 1) (z - 1)
        ((d.set a (diff (groupAt d z))).set z (diff (groupAt d a)))
    else if a = z then d.set a (diff (groupAt d a))
    else d

/-- The derivation on the copied groups: swap the first and the last, then the loop (rule R100). -/
def decGroups (d : List Block) : List Block :=
  decLoop d.length 1 (d.length - 2)
    ((d.set 0 (groupAt d (d.length - 1))).set (d.length - 1) (groupAt d 0))

/-- The first `n` groups of a schedule. -/
def scheduleGroups (rk : Vector Word 68) (n : Nat) : List Block :=
  (List.range n).map fun g => rkGroup rk (4 * g)

/-- `DEC_KEYS`: the derivation on a copy of the meaningful words of `ERK`, written to `DRK`; words at
index `4*(NR+1)` and above are not written (rules R22, R100). -/
def decKeys (erk : Vector Word 68) (k : KeySize) (old : Vector Word 68) : Vector Word 68 :=
  let d := decGroups (scheduleGroups erk (k.rounds + 1))
  tabulate 68 fun i =>
    if i < k.rkWords then (groupAt d (i / 4)).word (i % 4) else rkWord old i

end Sys2Proof.Machine
end

