-- ==== Sys2Proof/Machine/TableRom.lean ====
section
/-! DEFINITION. The finished contents of the generator tables and the S-boxes, copied row by row from
`spec/40_table_builder.md` (rules R56, R57, R65): each row below is one printed line, first entry most
significant. Rules R54, R65 and R129 let a model hold the tables as constants instead of building them;
`tableBuild` of `TableBuilder.lean` is the construction, and that the two agree is an obligation. -/

namespace Sys2Proof.Machine

/-- Entry `i` of a table printed as sixteen rows of sixteen bytes: the row is the high hex digit of the
index, the column the low one. -/
def romEntry (rows : List Nat) (i : Nat) : Byte :=
  BitVec.ofNat 8 (rows.getD (i / 16) 0 >>> (8 * (15 - i % 16)))

/-- A printed table as data. -/
def romTable (rows : List Nat) : Vector Byte 256 := tabulate 256 (romEntry rows)

/-- `EXP`, rule R56 (`GEN = 0x03`). -/
def expRows : List Nat := [
  0x0103050F113355FF1A2E7296A1F81335,
  0x5FE13848D87395A4F702060A1E2266AA,
  0xE5345CE43759EB266ABED97090ABE631,
  0x53F5040C143C44CC4FD168B8D36EB2CD,
  0x4CD467A9E03B4DD762A6F10818287888,
  0x839EB9D06BBDDC7F8198B3CE49DB769A,
  0xB5C457F9103050F00B1D2769BBD661A3,
  0xFE192B7D8792ADEC2F7193AEE92060A0,
  0xFB163A4ED26DB7C25DE73256FA153F41,
  0xC35EE23D47C940C05BED2C749CBFDA75,
  0x9FBAD564ACEF2A7E829DBCDF7A8E8980,
  0x9BB6C158E82365AFEA256FB1C843C554,
  0xFC1F2163A5F407091B2D7799B0CB46CA,
  0x45CF4ADE798B8691A8E33E42C651F30E,
  0x12365AEE297B8D8C8F8A8594A7F20D17,
  0x394BDD7C8497A2FD1C246CB4C752F601]

/-- `LOG`, rule R57 (`GEN = 0x03`). -/
def logRows : List Nat := [
  0x0000190132021AC64BC71B6833EEDF03,
  0x6404E00E348D81EF4C7108C8F8691CC1,
  0x7DC21DB5F9B9276A4DE4A6729AC90978,
  0x652F8A05210FE12412F082453593DA8E,
  0x968FDBBD36D0CE94135CD2F140468338,
  0x66DDFD30BF068B62B325E29822889110,
  0x7E6E48C3A3B61E423A6B2854FA853DBA,
  0x2B790A159B9F5ECA4ED4ACE5F373A757,
  0xAF58A850F4EAD6744FAEE9D5E7E6ADE8,
  0x2CD7757AEB160BF559CB5FB09CA951A0,
  0x7F0CF66F17C449ECD8431F2DA4767BB7,
  0xCCBB3E5AFB60B1863B52A16CAA55299D,
  0x97B2879061BEDCFCBC95CFCD373F5BD1,
  0x5339843C41A26D47142A9E5D56F2D3AB,
  0x441192D923202E89B47CB8267799E3A5,
  0x674AEDDEC531FE180D638C80C0F77007]

/-- `S1`, rule R65. -/
def s1Rows : List Nat := [
  0x637C777BF26B6FC53001672BFED7AB76,
  0xCA82C97DFA5947F0ADD4A2AF9CA472C0,
  0xB7FD9326363FF7CC34A5E5F171D83115,
  0x04C723C31896059A071280E2EB27B275,
  0x09832C1A1B6E5AA0523BD6B329E32F84,
  0x53D100ED20FCB15B6ACBBE394A4C58CF,
  0xD0EFAAFB434D338545F9027F503C9FA8,
  0x51A3408F929D38F5BCB6DA2110FFF3D2,
  0xCD0C13EC5F974417C4A77E3D645D1973,
  0x60814FDC222A908846EEB814DE5E0BDB,
  0xE0323A0A4906245CC2D3AC629195E479,
  0xE7C8376D8DD54EA96C56F4EA657AAE08,
  0xBA78252E1CA6B4C6E8DD741F4BBD8B8A,
  0x703EB5664803F60E613557B986C11D9E,
  0xE1F8981169D98E949B1E87E9CE5528DF,
  0x8CA1890DBFE6426841992D0FB054BB16]

/-- `S2`, rule R65. -/
def s2Rows : List Nat := [
  0xE24E54FC94C24ACC620D6A463C4D8BD1,
  0x5EFA64CBB497BE2BBC772E03D31959C1,
  0x1D06416B55F09969EA9C18AE63DFE7BB,
  0x007366FB964C85E43A0945AA0FEE10EB,
  0x2D7FF429ACCFAD918D78C895F92FCECD,
  0x087A88385C832A2847DBB8C793A41253,
  0xFF870E3136215848018E377432CAE9B1,
  0xB7AB0CD7C4564226079860D9B6B91140,
  0xEC208CBDA0C984044923F14F501F13DC,
  0xD8C09E57E3C37B653B028F3EE82592E5,
  0x15DDFD17A9BFD49A7EC53967FE769D43,
  0xA7E1D0F568F21B347005A38AD57986A8,
  0x30C6514B1EA627F635D26E2416825FDA,
  0xE675A2EF2CB21C9F5D6F800A72449B6C,
  0x900B5B337D5A52F361A1F7B0D63F7C6D,
  0xED14E0A53D22B3F889DE711AAFBAB581]

/-- `X1`, rule R65. -/
def x1Rows : List Nat := [
  0x52096AD53036A538BF40A39E81F3D7FB,
  0x7CE339829B2FFF87348E4344C4DEE9CB,
  0x547B9432A6C2233DEE4C950B42FAC34E,
  0x082EA16628D924B2765BA2496D8BD125,
  0x72F8F66486689816D4A45CCC5D65B692,
  0x6C704850FDEDB9DA5E154657A78D9D84,
  0x90D8AB008CBCD30AF7E45805B8B34506,
  0xD02C1E8FCA3F0F02C1AFBD0301138A6B,
  0x3A9111414F67DCEA97F2CFCEF0B4E673,
  0x96AC7422E7AD3585E2F937E81C75DF6E,
  0x47F11A711D29C5896FB7620EAA18BE1B,
  0xFC563E4BC6D279209ADBC0FE78CD5AF4,
  0x1FDDA8338807C731B11210592780EC5F,
  0x60517FA919B54A0D2DE57A9F93C99CEF,
  0xA0E03B4DAE2AF5B0C8EBBB3C83539961,
  0x172B047EBA77D626E169146355210C7D]

/-- `X2`, rule R65. -/
def x2Rows : List Nat := [
  0x3068991B87B921785039DBE17209623C,
  0x3E7E5E8EF1A0CCA32A1DFBB6D620C48D,
  0x8165F589CB9D77C657435617D4401A4D,
  0xC0636CE3B7C8646A53AA38980CF49BED,
  0x7F2276AFDD3A0B58678806C3350D018B,
  0x8CC2E65F02247593661EE5E254D810CE,
  0x7AE8082C129732ABB4270A23DFEFCAD9,
  0xB8FADC316BD1AD1949BD5196EEE4A841,
  0xDAFFCD558636BE6152F8BB0E8248699A,
  0xE0479E5C044B34157926A7DE29AE92D7,
  0x84E9D2BA5DF3C5B0BFA43B7144462BFC,
  0xEB6FD5F614FE7C705A7DFD2F188316A5,
  0x911F059574A9C15B4A856D13074F4E45,
  0xB20FC91CA6BCEC73907BCF598FA1F92D,
  0xF2B10094379FD02E9C6E283F80F03DD3,
  0x258AB5E742B3C7EAF74C113303A2AC60]

/-- The tables as they stand after every table build with the default parameters: the S-boxes as
printed, the fused tables by rule R66. -/
def romTables : Tables where
  exp := romTable expRows
  log := romTable logRows
  s1 := romTable s1Rows
  s2 := romTable s2Rows
  x1 := romTable x1Rows
  x2 := romTable x2Rows
  ts1 := fusedTable mulTS1 (romTable s1Rows)
  ts2 := fusedTable mulTS2 (romTable s2Rows)
  tx1 := fusedTable mulTX1 (romTable x1Rows)
  tx2 := fusedTable mulTX2 (romTable x2Rows)

/-- The tables a reset leaves: the printed constants where `GEN`, `AFF_A` and `AFF_B` have their
defaults, as rules R54 and R129 permit, and the table build for any other values (rule R6;
notes/assumptions/10.md). -/
def builtTables (cfg : Config) : Tables :=
  if cfg.gen = gen ∧ cfg.affA = affA ∧ cfg.affB = affB then romTables else tableBuild cfg

end Sys2Proof.Machine
end

