-- ==== Sys2Proof/Machine/State.lean ====
section
/-! DEFINITION. The machine's state (`spec/10_state.md`), the reasons a step could stop, and the state
after reset (`spec/70_reset_and_hazards.md` rule R130). -/

namespace Sys2Proof.Machine

/-- The working registers (`spec/10_state.md` rules R31 to R34). No host access reads them. -/
structure Work where
  /-- `T[0..3]`, rule R31 -/
  t : Block
  /-- `W[0..3]`, rule R32 -/
  w : Vector Block 4
  /-- `Q`, rule R33 -/
  q : BitVec 2
  /-- `J`, rule R34 -/
  j : BitVec 7
deriving DecidableEq, Repr

/-- One access at the host port (`spec/20_memory.md` rules R38, R40): the port carries a 5-bit slot
number, offset bits 6:2, and a 32-bit word. `reset` is the reset input, an event between two accesses
(rule R129). -/
inductive HostAccess where
  | write (slot : BitVec 5) (v : Word)
  | read (slot : BitVec 5)
  | reset
deriving DecidableEq, Repr

/-- The whole machine. The fields from `cfg` on are the MODEL's own: the spec does not give them
(notes/assumptions/1.md, 2.md, 4.md, 8.md). -/
structure State where
  /-- `EXP`, `LOG` and the lookup tables, rules R10 to R12 -/
  tables : Tables
  /-- `KSIZE`, rule R14; `NR` is computed from it, rule R15 -/
  ksize : KeySize
  /-- `MK_VALID`, rule R17 -/
  mkValid : Bool
  /-- `MK[0..31]`, rule R18 -/
  masterKey : Vector Byte 32
  /-- `ENC_VALID`, rule R19 -/
  encValid : Bool
  /-- `ERK[0..67]`, rule R20 -/
  erk : Vector Word 68
  /-- `DEC_VALID`, rule R21 -/
  decValid : Bool
  /-- `DRK[0..67]`, rule R22 -/
  drk : Vector Word 68
  /-- `STATUS.ERR`, rules R28, R29; the rest of `STATUS` is a view -/
  err : BitVec 2
  /-- `RESULT`, rule R27 -/
  result : Word
  /-- `DIN[0..3]`, rule R24 -/
  din : Block
  /-- `DOUT[0..3]`, rule R25 -/
  dout : Block
  /-- `KEYBUF[0..7]`, rule R26 -/
  keybuf : Vector Word 8
  /-- `T`, `W`, `Q`, `J` -/
  work : Work
  /-- the parameters of rule R6, which no step changes (notes/assumptions/4.md) -/
  cfg : Config
  /-- how many free values have been drawn (notes/assumptions/8.md) -/
  fresh : Nat
  /-- the host accesses not yet performed, oldest first (rule R35; notes/assumptions/1.md) -/
  queue : List HostAccess
  /-- the values the performed reads returned, oldest first (notes/assumptions/2.md) -/
  replies : List Word
deriving DecidableEq, Repr

/-- The reasons a step can fault. There is none: an error of this machine is a code in `STATUS.ERR`
and the engine goes on (`spec/60_exceptions.md` rules R115, R120, R123). Safe: nothing stops. -/
inductive Fault where
deriving DecidableEq, Repr

/-- The reasons a step can refuse. -/
inductive Refusal where
  /-- Raised by an arm of `exec` whose instruction has no meaning yet; safe. No arm raises it. -/
  | notModelled (mnemonic : String)
deriving DecidableEq, Repr

/-- The working registers after reset: unspecified by rule R130; 0 is a DESIGN CHOICE
(notes/assumptions/6.md, unsafe). -/
def Work.reset : Work where
  t := ⟨0, 0, 0, 0⟩
  w := tabulate 4 fun _ => ⟨0, 0, 0, 0⟩
  q := 0
  j := 0

/-- The machine right after reset, rules R129 and R130. `erk` and `drk` are unspecified there; 0 is a
DESIGN CHOICE (notes/assumptions/5.md, unsafe). The parameters have the spec's defaults
(notes/assumptions/4.md). -/
def State.reset : State where
  tables := romTables
  ksize := .unset
  mkValid := false
  masterKey := tabulate 32 fun _ => 0
  encValid := false
  erk := tabulate 68 fun _ => 0
  decValid := false
  drk := tabulate 68 fun _ => 0
  err := 0
  result := 0
  din := ⟨0, 0, 0, 0⟩
  dout := ⟨0, 0, 0, 0⟩
  keybuf := tabulate 8 fun _ => 0
  work := Work.reset
  cfg := Config.default
  fresh := 0
  queue := []
  replies := []

end Sys2Proof.Machine
end

