-- ==== Sys2Proof/Machine/Operands.lean ====
section
/-! DEFINITION. What the operands of the commands denote: key bytes of `KEYBUF`, table entries and
schedules (`spec/43_commands.md`). -/

namespace Sys2Proof.Machine

/-- `KEYBUF` byte `n`, byte position `B(3 - n mod 4)` of `KEYBUF[n div 4]` (rule R26). -/
def keybufByte (keybuf : Vector Word 8) (n : Nat) : Byte :=
  let w := keybuf[n / 4]?.getD 0
  match n % 4 with
  | 0 => byte3 w
  | 1 => byte2 w
  | 2 => byte1 w
  | _ => byte0 w

/-- The bytes `SET_KEY` stores: `KEYBUF` bytes below `min(LEN, 32)`, then zeros (rule R105). -/
def keyBytes (keybuf : Vector Word 8) (len : Nat) : Vector Byte 32 :=
  tabulate 32 fun i => if i < min len 32 then keybufByte keybuf i else 0

/-- The entry a `TBL_READ` returns, bytes zero-extended (rule R110). -/
def tableEntry (tb : Tables) (sel : TableSel) (idx : Byte) : Word :=
  match sel with
  | .s1 => zext32 (look tb.s1 idx)
  | .s2 => zext32 (look tb.s2 idx)
  | .x1 => zext32 (look tb.x1 idx)
  | .x2 => zext32 (look tb.x2 idx)
  | .ts1 => look tb.ts1 idx
  | .ts2 => look tb.ts2 idx
  | .tx1 => look tb.tx1 idx
  | .tx2 => look tb.tx2 idx

/-- The valid bit of the selected schedule (rule R111). -/
def schedValid (s : State) : Sched → Bool
  | .erk => s.encValid
  | .drk => s.decValid

/-- The selected schedule (rule R111). -/
def schedWords (s : State) : Sched → Vector Word 68
  | .erk => s.erk
  | .drk => s.drk

end Sys2Proof.Machine
end

