-- ==== Sys2Proof/Machine/Ops.lean ====
section
/-! DEFINITION. The shared operations of the commands: ending a command with or without an error
(`spec/60_exceptions.md` rules R115, R120; `spec/43_commands.md` rule R102), the two key setups
(rules R106, R107) and the block operation (rules R108, R109). -/

namespace Sys2Proof.Machine

/-- The error kinds (rule R116). -/
inductive ErrKind where
  | invalidKey
  | illegalCommand
  | outOfRange
deriving DecidableEq, Repr

/-- The error codes (rule R116). -/
def ErrKind.code : ErrKind → BitVec 2
  | .invalidKey => 1
  | .illegalCommand => 2
  | .outOfRange => 3

/-- What a step or a command answers. -/
abbrev Result := Host.Outcome State Fault Refusal

/-- Raising an error, the machine's whole exception entry: the code goes to `STATUS.ERR`, nothing else
is saved or changed, control goes nowhere (rules R102, R115, R120). There is no return: the next
command overwrites the code (rule R121). -/
def raise (e : ErrKind) (s : State) : Result := .next { s with err := e.code }

/-- A command that succeeds writes 0 to `STATUS.ERR` (rules R29, R102, R115). -/
def succeed (s : State) : Result := .next { s with err := 0 }

/-- The context after an accepted `SET_KEY_SIZE`: the size, and no key and no schedule. The stored
bytes and words are not erased (rules R103, R135). -/
def setContextSize (k : KeySize) (s : State) : State :=
  { s with ksize := k, mkValid := false, encValid := false, decValid := false }

/-- The failure effect of a rejected `SET_KEY_SIZE` under each policy (rules R102, R103; D10). -/
def failedSize (s : State) : State :=
  match s.cfg.ksizeFailPolicy with
  | .keep => s
  | .clear => setContextSize .unset s

/-- The state vectors of the context's key (rule R94). -/
def contextVectors (s : State) : KeyVectors := keyVectors s.tables s.cfg s.masterKey s.ksize

/-- `EncSetup()`, rule R106: `ERK` from the master key, the decryption schedule absent. `J` ends as the
next group's write index (rules R34, R98, R99). -/
def encSetup (s : State) : State :=
  let kv := contextVectors s
  { s with
    decValid := false
    erk := encKeys kv.w s.ksize s.erk
    encValid := true
    work := { t := kv.t, w := kv.w, q := kv.q, j := BitVec.ofNat 7 s.ksize.rkWords } }

/-- `EncSetup()` where the encryption schedule is absent (rules R107, R108). -/
def ensureEnc (s : State) : State := if s.encValid then s else encSetup s

/-- The second half of `DecSetup()`, rule R107: `DRK` from `ERK`. The rules do not say what `T` and `J`
hold afterwards: free values (rules R31, R34, R100; notes/assumptions/8.md). -/
def deriveDec (s : State) : State :=
  { s with
    drk := decKeys s.erk s.ksize s.drk
    decValid := true
    work := { s.work with t := Config.freeT s.fresh, j := Config.freeJ s.fresh }
    fresh := s.fresh + 1 }

/-- `DecSetup()`, rule R107. -/
def decSetup (s : State) : State := deriveDec (ensureEnc s)

/-- `DecSetup()` where the decryption schedule is absent (rule R109). -/
def ensureDec (s : State) : State := if s.decValid then s else decSetup s

/-- The block operation on `DIN` under a schedule: `DOUT` and the working registers `T` and `J`
(rules R89, R108, R109). -/
def cryptBlock (rk : Vector Word 68) (s : State) : State :=
  let c := crypt s.tables s.din.bytes rk s.ksize.rounds
  { s with
    dout := Block.ofBytes c.out
    work := { s.work with t := c.t, j := BitVec.ofNat 7 c.j } }

end Sys2Proof.Machine
end

