-- ==== Sys2Proof/Machine/BlockOps.lean ====
section
/-! DEFINITION. Block operations: `ENCRYPT`, `DECRYPT` (`spec/43_commands.md` rules R108, R109). -/

namespace Sys2Proof.Machine

/-- `ENCRYPT`, rule R108. -/
def execEncrypt (s : State) : Result :=
  if s.ksize = .unset then raise .invalidKey s
  else if s.encValid = false ∧ s.mkValid = false then raise .invalidKey s
  else succeed (cryptBlock (ensureEnc s).erk (ensureEnc s))

/-- `DECRYPT`, rule R109. -/
def execDecrypt (s : State) : Result :=
  if s.ksize = .unset then raise .invalidKey s
  else if s.decValid = false ∧ s.encValid = false ∧ s.mkValid = false then raise .invalidKey s
  else succeed (cryptBlock (ensureDec s).drk (ensureDec s))

end Sys2Proof.Machine
end

