-- ==== Sys2Proof/Machine/KeyConfig.lean ====
section
/-! DEFINITION. Key configuration: `SET_KEY_SIZE`, `GET_KEY_SIZE`, `SET_KEY` (`spec/43_commands.md`
rules R103 to R105). -/

namespace Sys2Proof.Machine

/-- `SET_KEY_SIZE size`, rule R103. -/
def execSetKeySize (size : Nat) (s : State) : Result :=
  match KeySize.ofSize size with
  | none => raise .invalidKey (failedSize s)
  | some k => succeed (setContextSize k s)

/-- `GET_KEY_SIZE`, rule R104. -/
def execGetKeySize (s : State) : Result :=
  succeed { s with result := BitVec.ofNat 32 s.ksize.bits }

/-- `SET_KEY len`, rule R105: the size before the length (rule R122). -/
def execSetKey (len : Nat) (s : State) : Result :=
  if s.ksize = .unset then raise .invalidKey s
  else if len * 8 < s.ksize.bits then raise .invalidKey s
  else succeed { s with
    masterKey := keyBytes s.keybuf len, mkValid := true, encValid := false, decValid := false }

end Sys2Proof.Machine
end

