-- ==== Sys2Proof/Machine/KeySetup.lean ====
section
/-! DEFINITION. Key setup: `SETUP_ENC`, `SETUP_DEC` (`spec/43_commands.md` rules R106, R107). -/

namespace Sys2Proof.Machine

/-- `SETUP_ENC`, rule R106. -/
def execSetupEnc (s : State) : Result :=
  if s.ksize = .unset ∨ s.mkValid = false then raise .invalidKey s
  else succeed (encSetup s)

/-- `SETUP_DEC`, rule R107; the same word is `SETUP_KEYS` (rule R112). -/
def execSetupDec (s : State) : Result :=
  if s.ksize = .unset then raise .invalidKey s
  else if s.encValid = false ∧ s.mkValid = false then raise .invalidKey s
  else succeed (decSetup s)

end Sys2Proof.Machine
end

