-- ==== Sys2Proof/Machine/Observe.lean ====
section
/-! DEFINITION. Observation commands: `TBL_READ`, `RK_READ` (`spec/43_commands.md` rules R110, R111). -/

namespace Sys2Proof.Machine

/-- `TBL_READ table, idx`, rule R110. -/
def execTblRead (sel : TableSel) (idx : Byte) (s : State) : Result :=
  succeed { s with result := tableEntry s.tables sel idx }

/-- `RK_READ sched, idx`, rule R111: presence before range (rule R122). -/
def execRkRead (sched : Sched) (idx : Nat) (s : State) : Result :=
  if schedValid s sched = false then raise .invalidKey s
  else if s.ksize.rkWords ≤ idx then raise .outOfRange s
  else succeed { s with result := rkWord (schedWords s sched) idx }

end Sys2Proof.Machine
end

