-- ==== Sys2Proof/Machine/Dispatch.lean ====
section
/-! DEFINITION. Running the rule of a decoded command (`spec/43_commands.md` rule R102): one arm per
constructor of `Instr`. -/

namespace Sys2Proof.Machine

def exec (i : Instr) (s : State) : Host.Outcome State Fault Refusal :=
  match i with
  | .setKeySize size => Sys2Proof.Machine.execSetKeySize size s
  | .getKeySize => Sys2Proof.Machine.execGetKeySize s
  | .setKey len => Sys2Proof.Machine.execSetKey len s
  | .setupEnc => Sys2Proof.Machine.execSetupEnc s
  | .setupDec => Sys2Proof.Machine.execSetupDec s
  | .encrypt => Sys2Proof.Machine.execEncrypt s
  | .decrypt => Sys2Proof.Machine.execDecrypt s
  | .tblRead sel idx => Sys2Proof.Machine.execTblRead sel idx s
  | .rkRead sched idx => Sys2Proof.Machine.execRkRead sched idx s

end Sys2Proof.Machine
end

