-- ==== Sys2Proof/Machine/Flags.lean ====
section
/-! DEFINITION. The `STATUS` register as a view of the state (`spec/10_state.md` rules R28, R29). The
machine has no other flag (rule R30). -/

namespace Sys2Proof.Machine

/-- A field of `STATUS` whose lowest bit is bit `low`, the other bits 0. -/
def statusField {w : Nat} (v : BitVec w) (low : Nat) : Word := v.setWidth 32 <<< low

/-- `STATUS` in a given layout: `ERR`, `KEY`, `ENC`, `DEC` and `KS` at their places, the rest 0 (rules R6,
R28). Fields a layout lets overlap are ORed (notes/assumptions/20.md, DESIGN CHOICE). -/
def statusWordIn (l : StatusLayout) (s : State) : Word :=
  statusField s.err l.err ||| statusField (BitVec.ofBool s.mkValid) l.key
    ||| statusField (BitVec.ofBool s.encValid) l.enc ||| statusField (BitVec.ofBool s.decValid) l.dec
    ||| statusField s.ksize.code l.ks

/-- `STATUS` in the machine's layout (rules R6, R28). -/
def statusWord (s : State) : Word := statusWordIn s.cfg.host.status s

end Sys2Proof.Machine
end

