-- ==== Sys2Proof/Machine/HostPort.lean ====
section
/-! DEFINITION. The host port: executing a command word (`spec/43_commands.md` rule R102), the register
window and its access primitives (`spec/20_memory.md` rules R37, R38) and the reset event
(`spec/70_reset_and_hazards.md` rule R129). -/

namespace Sys2Proof.Machine

/-- A register of the window by its slot (rule R37). -/
inductive WindowReg where
  | cmd
  | status
  | result
  | din (k : Nat)
  | dout (k : Nat)
  | keybuf (k : Nat)
  | reserved
deriving DecidableEq, Repr

/-- The slots of `n` registers that follow each other from a slot. -/
def slotsFrom (first : BitVec 5) (n : Nat) : List (BitVec 5) :=
  (List.range n).map fun k => first + BitVec.ofNat 5 k

/-- The slots that hold a register, in the order of rule R37's table. -/
def registerSlots (o : Offsets) : List (BitVec 5) :=
  [o.cmd, o.status, o.result] ++ slotsFrom o.din 4 ++ slotsFrom o.dout 4 ++ slotsFrom o.keybuf 8

/-- The register at a slot, for given offsets; a slot with none is reserved (rules R6, R37). Of two
registers at one slot the first in rule R37's order is taken (notes/assumptions/20.md, DESIGN CHOICE). -/
def windowReg (o : Offsets) (slot : BitVec 5) : WindowReg :=
  if slot = o.cmd then .cmd
  else if slot = o.status then .status
  else if slot = o.result then .result
  else if (slot - o.din).toNat < 4 then .din (slot - o.din).toNat
  else if (slot - o.dout).toNat < 4 then .dout (slot - o.dout).toNat
  else if (slot - o.keybuf).toNat < 8 then .keybuf (slot - o.keybuf).toNat
  else .reserved

/-- `Execute(c)`, rule R102: an illegal word raises `IllegalCommand` whatever the state is (rules R119,
R122). The opcode numbers are the machine's (rule R6). -/
def execute (c : Word) (s : State) : Result :=
  match decodeWith s.cfg.host.opcodes c with
  | .error _ => raise .illegalCommand s
  | .ok i => exec i s

/-- `HostRead(off)`: the register's value, 0 for `CMD` and reserved slots (rule R38). -/
def hostRead (slot : BitVec 5) (s : State) : Word :=
  match windowReg s.cfg.host.offsets slot with
  | .cmd => 0
  | .status => statusWord s
  | .result => s.result
  | .din k => s.din.word k
  | .dout k => s.dout.word k
  | .keybuf k => s.keybuf[k]?.getD 0
  | .reserved => 0

/-- `HostWrite(off, v)`: a read-write register takes the value, a write to `CMD` executes it, any other
write does nothing (rule R38). -/
def hostWrite (slot : BitVec 5) (v : Word) (s : State) : Result :=
  match windowReg s.cfg.host.offsets slot with
  | .cmd => execute v s
  | .status => .next s
  | .result => .next s
  | .din k => .next { s with din := s.din.setWord k v }
  | .dout _ => .next s
  | .keybuf k => .next { s with keybuf := s.keybuf.setIfInBounds k v }
  | .reserved => .next s

/-- A performed read: its value goes to the host and no engine state changes (rule R38). -/
def readAccess (slot : BitVec 5) (s : State) : State :=
  { s with replies := s.replies ++ [hostRead slot s] }

/-- The machine right after reset for given parameters: `State.reset` with the tables built for them
(rules R6, R54, R129). -/
def State.resetFor (cfg : Config) : State :=
  { State.reset with tables := builtTables cfg, cfg := cfg }

/-- The reset event, rule R129: the machine is as after reset; the model's own fields stay
(notes/assumptions/9.md). -/
def resetEvent (s : State) : State :=
  { State.resetFor s.cfg with fresh := s.fresh, queue := s.queue, replies := s.replies }

/-- One host access performed on the machine (rules R38, R44, R129). -/
def perform (a : HostAccess) (s : State) : Result :=
  match a with
  | .write slot v => hostWrite slot v s
  | .read slot => .next (readAccess slot s)
  | .reset => .next (resetEvent s)

end Sys2Proof.Machine
end

