-- ==== Sys2Proof/Machine/Step.lean ====
section
/-! DEFINITION. One step of the machine: the oldest pending host access is performed, to completion
(`spec/10_state.md` rule R35, `spec/20_memory.md` rule R44). -/

namespace Sys2Proof.Machine

/-- One step. With no access pending the engine is idle and keeps all its state (rule R128;
notes/assumptions/3.md). -/
def step (s : State) : Host.Outcome State Fault Refusal :=
  match s.queue with
  | [] => .next s
  | a :: rest => perform a { s with queue := rest }

/-- The state in which the host is about to write the command word `w` to `CMD`: that write stands
before every access already pending (rules R23, R46; notes/assumptions/1.md). -/
def State.withFetchWord (s : State) (nbits w : Nat) : State :=
  { s with queue := .write s.cfg.host.offsets.cmd (BitVec.ofNat 32 (w % 2 ^ nbits)) :: s.queue }

end Sys2Proof.Machine
end

