-- ==== Sys2Proof/Machine/Pseudo.lean ====
section
/-! DEFINITION. The pseudo-instructions of `spec/30_encoding.md` rule R52 as the host accesses they
expand to, on a part with given parameters: its `CMD` offset and opcode numbers (rule R6). -/

namespace Sys2Proof.Machine

/-- A command line: `HostWrite(0x00, encoding)` (rule R51). -/
def issue (cfg : Config) (i : Instr) : HostAccess :=
  .write cfg.host.offsets.cmd (encodeWith cfg.host.opcodes i)

/-- `SETUP_KEYS`: the word of `SETUP_DEC` (rules R52, R112). -/
def setupKeys (cfg : Config) : List HostAccess := [issue cfg .setupDec]

/-- `INIT size`: `RESET`, then `SET_KEY_SIZE size` (rules R52, R113). -/
def initSize (cfg : Config) (size : Nat) : List HostAccess :=
  [.reset, issue cfg (.setKeySize size)]

/-- The word of bytes `4k .. 4k+3`, missing trailing bytes taken as 0 (rule R52). -/
def packWord (bytes : List Byte) (k : Nat) : Word :=
  be32 (bytes.getD (4 * k) 0) (bytes.getD (4 * k + 1) 0) (bytes.getD (4 * k + 2) 0)
    (bytes.getD (4 * k + 3) 0)

/-- `LOAD_KEY bytes`: `KEYBUF[k]` for each started word, then `SET_KEY` with the byte count
(rule R52). For more than 32 bytes R52 does not say what `KEYBUF8` and beyond are: the model writes the
eight registers there are and no others (notes/assumptions/18.md, DESIGN CHOICE). -/
def loadKey (cfg : Config) (bytes : List Byte) : List HostAccess :=
  (List.range (min ((bytes.length + 3) / 4) 8)).map
      (fun k => .write (cfg.host.offsets.keybuf + BitVec.ofNat 5 k) (packWord bytes k))
    ++ [issue cfg (.setKey bytes.length)]

/-- `LOAD_BLOCK bytes`: `DIN[0..3]` from sixteen bytes (rule R52). Of a list of another length, which R52
does not provide for, missing bytes count as 0 and bytes beyond the sixteenth are not used
(notes/assumptions/18.md, DESIGN CHOICE). -/
def loadBlock (cfg : Config) (bytes : List Byte) : List HostAccess :=
  (List.range 4).map fun k =>
    .write (cfg.host.offsets.din + BitVec.ofNat 5 k) (packWord bytes k)

end Sys2Proof.Machine
end

