-- ==== Sys2Proof/Machine/Context.lean ====
section
/-! DEFINITION. The context state machine of `spec/43_commands.md` rule R114, as the rule prints it, and
the causes of `InvalidKey` as `spec/60_exceptions.md` rule R117 lists them. No meaning calls these: they
are the spec's own summaries, in the form claims use. -/

namespace Sys2Proof.Machine

/-- The five context states of rule R114. -/
inductive CtxState where
  /-- `U` -/
  | unset
  /-- `S` -/
  | sizeSet
  /-- `K` -/
  | keyStored
  /-- `E` -/
  | encBuilt
  /-- `D` -/
  | bothBuilt
deriving DecidableEq, Repr

/-- The context state of a machine state, by the first table of rule R114. -/
def ctxState (s : State) : CtxState :=
  if s.ksize = .unset then .unset
  else if s.mkValid = false then .sizeSet
  else if s.encValid = false then .keyStored
  else if s.decValid = false then .encBuilt
  else .bothBuilt

/-- The second table of rule R114: the next context state, and whether the entry is `err`
(`InvalidKey`). `bits` is the value of `KSIZE`. -/
def transition (policy : FailPolicy) (bits : Nat) (i : Instr) (c : CtxState) : CtxState × Bool :=
  match i with
  | .setKeySize size =>
    if size = 128 ∨ size = 192 ∨ size = 256 then (.sizeSet, false)
    else match policy with
      | .keep => (c, true)
      | .clear => (.unset, true)
  | .setKey len =>
    match c with
    | .unset => (.unset, true)
    | c => if bits ≤ len * 8 then (.keyStored, false) else (c, true)
  | .setupEnc =>
    match c with
    | .unset => (.unset, true)
    | .sizeSet => (.sizeSet, true)
    | .keyStored => (.encBuilt, false)
    | .encBuilt => (.encBuilt, false)
    | .bothBuilt => (.encBuilt, false)
  | .setupDec =>
    match c with
    | .unset => (.unset, true)
    | .sizeSet => (.sizeSet, true)
    | .keyStored => (.bothBuilt, false)
    | .encBuilt => (.bothBuilt, false)
    | .bothBuilt => (.bothBuilt, false)
  | .encrypt =>
    match c with
    | .unset => (.unset, true)
    | .sizeSet => (.sizeSet, true)
    | .keyStored => (.encBuilt, false)
    | .encBuilt => (.encBuilt, false)
    | .bothBuilt => (.bothBuilt, false)
  | .decrypt =>
    match c with
    | .unset => (.unset, true)
    | .sizeSet => (.sizeSet, true)
    | .keyStored => (.bothBuilt, false)
    | .encBuilt => (.bothBuilt, false)
    | .bothBuilt => (.bothBuilt, false)
  | .getKeySize => (c, false)
  | .tblRead _ _ => (c, false)
  | .rkRead .erk _ =>
    match c with
    | .unset => (.unset, true)
    | .sizeSet => (.sizeSet, true)
    | .keyStored => (.keyStored, true)
    | .encBuilt => (.encBuilt, false)
    | .bothBuilt => (.bothBuilt, false)
  | .rkRead .drk _ =>
    match c with
    | .unset => (.unset, true)
    | .sizeSet => (.sizeSet, true)
    | .keyStored => (.keyStored, true)
    | .encBuilt => (.encBuilt, true)
    | .bothBuilt => (.bothBuilt, false)

/-- The eleven causes of `InvalidKey`, rule R117 row by row. -/
def invalidKeyCause (i : Instr) (s : State) : Prop :=
  match i with
  | .setKeySize size => size ≠ 128 ∧ size ≠ 192 ∧ size ≠ 256
  | .setKey len => s.ksize = .unset ∨ len * 8 < s.ksize.bits
  | .setupEnc => s.ksize = .unset ∨ s.mkValid = false
  | .setupDec => s.ksize = .unset ∨ (s.encValid = false ∧ s.mkValid = false)
  | .encrypt => s.ksize = .unset ∨ (s.encValid = false ∧ s.mkValid = false)
  | .decrypt =>
    s.ksize = .unset ∨ (s.decValid = false ∧ s.encValid = false ∧ s.mkValid = false)
  | .rkRead .erk _ => s.encValid = false
  | .rkRead .drk _ => s.decValid = false
  | .getKeySize => False
  | .tblRead _ _ => False

end Sys2Proof.Machine
end

