-- ==== Sys2Proof/Safety.lean ====
section
/-! DEFINITION. What a good state is and what the host can tell apart, in the terms the claims use:
the context invariants of `spec/10_state.md` rule R16, the finished tables (`spec/40_table_builder.md`
rule R70) and the observation relation behind `spec/70_reset_and_hazards.md` rule R140. -/

namespace Sys2Proof.Machine

/-- Word `i` of `ENC_KEYS(MK, KSIZE)` for the context of `s` (rules R98, R99). -/
def contextEncWord (s : State) (i : Nat) : Word :=
  (encGroup (contextVectors s).w (i / 4)).word (i % 4)

/-- Word `i` of `DEC_KEYS(ERK)` for the context of `s` (rule R100). -/
def contextDecWord (s : State) (i : Nat) : Word := rkWord (decKeys s.erk s.ksize s.drk) i

/-- The context invariants, rule R16 (a) to (e). -/
structure ContextInv (s : State) : Prop where
  /-- (a) -/
  keyNeedsSize : s.mkValid = true → s.ksize ≠ .unset
  /-- (b) -/
  encNeedsKey : s.encValid = true → s.mkValid = true
  /-- (c) -/
  decNeedsEnc : s.decValid = true → s.encValid = true
  /-- (d) -/
  encDerived : s.encValid = true → ∀ i, i < s.ksize.rkWords → rkWord s.erk i = contextEncWord s i
  /-- (e) -/
  decDerived : s.decValid = true → ∀ i, i < s.ksize.rkWords → rkWord s.drk i = contextDecWord s i

/-- The lookup tables hold what the table build gives for the default parameters (rules R11, R12,
R70). -/
def TablesBuilt (s : State) : Prop := s.tables = romTables

/-- Two states that no sequence of host accesses can tell apart: equal but for the working registers,
the drawn free values, a key or schedule that is absent, and schedule words beyond the length
(rules R20, R22, R31 to R34, R140). -/
structure SameToHost (s s' : State) : Prop where
  tables : s.tables = s'.tables
  ksize : s.ksize = s'.ksize
  mkValid : s.mkValid = s'.mkValid
  masterKey : s.mkValid = true → s.masterKey = s'.masterKey
  encValid : s.encValid = s'.encValid
  erk : s.encValid = true → ∀ i, i < s.ksize.rkWords → rkWord s.erk i = rkWord s'.erk i
  decValid : s.decValid = s'.decValid
  drk : s.decValid = true → ∀ i, i < s.ksize.rkWords → rkWord s.drk i = rkWord s'.drk i
  err : s.err = s'.err
  result : s.result = s'.result
  din : s.din = s'.din
  dout : s.dout = s'.dout
  keybuf : s.keybuf = s'.keybuf
  cfg : s.cfg = s'.cfg
  queue : s.queue = s'.queue
  replies : s.replies = s'.replies

/-- The parity of a byte's bits, as used by the closed forms of rules R60 and R63. -/
def parity (p : Byte) : Bool := (List.range 8).foldl (fun s k => s ^^ p.getLsbD k) false

/-- `ROWMASK_A[0..7]`, rule R60. -/
def rowMaskA : List Byte := [0xF1, 0xE3, 0xC7, 0x8F, 0x1F, 0x3E, 0x7C, 0xF8]

/-- `ROWMASK_B[0..7]`, rule R63. -/
def rowMaskB : List Byte := [0x7A, 0xBC, 0xEB, 0xB9, 0x34, 0x81, 0xBA, 0xCB]

/-- A generator of the multiplicative group: its powers are all the nonzero bytes (rules R56, R58). -/
def IsGenerator (g : Byte) : Prop := ∀ v : Byte, v ≠ 0 → ∃ n, n < 255 ∧ expAt g n = v

end Sys2Proof.Machine
end

