-- ==== Sys2Proof/Certificates/Slice0/Obligations.lean ====
section
/-! DEFINITION. The statements for the provers, in the order of OBLIGATIONS.json. -/

open Sys2Proof Sys2Proof.Machine

/-! ## Encoding -/

/-- Every bit of a command survives encoding and decoding: for every well-formed command, with every
operand at every value its field admits, and for all distinct opcode numbers, those of the opcode map
among them (30_encoding.md sections 1 to 3 and 6, 00_scope.md section 3). -/
def Obligations.DecodeEncodeRoundTrip : Prop :=
  (∀ (o : Opcodes) (i : Instr), o.all.Nodup → i.wellFormed = true →
    decodeWith o (encodeWith o i) = .ok i) ∧
  (∀ i : Instr, i.wellFormed = true → decode (encode i) = .ok i)

/-- No two command words stand for one command, whatever the opcode numbers: a word that decodes is the
encoding of what it decodes to (30_encoding.md sections 1 to 3 and 6, 00_scope.md section 3). Which
command two equal numbers select is the model's choice (notes/assumptions/20.md). -/
def Obligations.DecodedWordsReencode : Prop :=
  (∀ (o : Opcodes) (c : Word) (i : Instr), decodeWith o c = .ok i →
    encodeWith o i = c ∧ i.wellFormed = true) ∧
  (∀ (c : Word) (i : Instr), decode c = .ok i → encode i = c ∧ i.wellFormed = true)

/-- The decoder refuses exactly the words rule R49 calls illegal (30_encoding.md sections 4 and 6). -/
def Obligations.DecoderRefusesExactlyIllegalWords : Prop :=
  ∀ c : Word, (∃ e, decode c = .error e) ↔ illegalWord c = true

/-- The opcode map of rule R48: a word meets the mask and match of a row exactly when it decodes to
that row's command; and the rule's nine example words. -/
def Obligations.OpcodeMapSelectsTheCommand : Prop :=
  (∀ (c : Word) (r : OpcodeRow), r ∈ opcodeRows →
    (r.selects c = true ↔ ∃ i, decode c = .ok i ∧ i.mnemonic = r.mnemonic)) ∧
  encode (.setKeySize 128) = 0x01000080 ∧ encode (.setKeySize 192) = 0x010000C0 ∧
  encode (.setKeySize 256) = 0x01000100 ∧ encode (.setKey 16) = 0x03000010 ∧
  encode (.setKey 24) = 0x03000018 ∧ encode (.setKey 32) = 0x03000020 ∧
  encode .encrypt = 0x06000000 ∧ encode (.tblRead .ts2 0x53) = 0x08000553 ∧
  encode (.rkRead .drk 51) = 0x09000133

/-- Words written out from the encodings decode to the commands they stand for
(95_test_vectors.md section 2.6). -/
def Obligations.SampleWordsDecode : Prop :=
  decode 0x0100FFFF = .ok (.setKeySize 65535) ∧ decode 0x02000000 = .ok .getKeySize ∧
  decode 0x0300FFFF = .ok (.setKey 65535) ∧ decode 0x04000000 = .ok .setupEnc ∧
  decode 0x05000000 = .ok .setupDec ∧ decode 0x06000000 = .ok .encrypt ∧
  decode 0x07000000 = .ok .decrypt ∧ decode 0x080007FF = .ok (.tblRead .tx2 0xFF) ∧
  decode 0x0900017F = .ok (.rkRead .drk 127) ∧ decode 0x09000043 = .ok (.rkRead .erk 67) ∧
  decode 0x07800000 = .error .reservedField ∧ decode 0x00000006 = .error .reservedOpcode ∧
  decode 0x02000001 = .error .operandNotZero ∧ decode 0x08000800 = .error .argBitNotZero ∧
  decode 0x09000080 = .error .argBitNotZero ∧ decode 0x09000200 = .error .argBitNotZero

/-! ## The host port and the step -/

/-- A step at a pending write of a command word to `CMD` is `exec` of the decoded command on the state
without that access, for every `CMD` offset and all opcode numbers; on a part with the default host
interface `CMD` is slot 0 and the decoder that of the opcode map. What stands at a slot or a number that
two of them share is the model's choice (notes/assumptions/20.md). The queue of accesses is the model's
choice (notes/assumptions/1.md). -/
def Obligations.StepRunsTheDecodedCommand : Prop :=
  ∀ (s : State) (c : Word) (i : Instr) (rest : List HostAccess),
    (s.queue = .write s.cfg.host.offsets.cmd c :: rest →
      decodeWith s.cfg.host.opcodes c = .ok i → step s = exec i { s with queue := rest }) ∧
    (s.cfg.host = HostInterface.default → s.queue = .write 0 c :: rest → decode c = .ok i →
      step s = exec i { s with queue := rest })

/-- An illegal word raises `IllegalCommand` in every state and changes `STATUS.ERR` only, and every
other word is a command (rule R119): whatever the opcode numbers, the words the decoder refuses; with
those of rule R48, the words that meet one of the four conditions of rule R49. -/
def Obligations.IllegalWordsRaiseIllegalCommand : Prop :=
  ∀ (c : Word) (s : State),
    (∀ e, decodeWith s.cfg.host.opcodes c = .error e → execute c s = .next { s with err := 2 }) ∧
    (∀ i, decodeWith s.cfg.host.opcodes c = .ok i → execute c s = exec i s) ∧
    (s.cfg.host.opcodes = Opcodes.default →
      (illegalWord c = true → execute c s = .next { s with err := 2 }) ∧
      (illegalWord c = false → ∃ i, decode c = .ok i ∧ execute c s = exec i s))

/-- The access primitives of rule R38 over the whole window, for all offsets at which no two registers
fall together, and those of rule R37 are such: a read returns the register (0 for `CMD` and the reserved
slots) and changes no engine state; a write stores into `DIN` or `KEYBUF`, executes a word at `CMD`, and
does nothing elsewhere. That the accesses stand in `queue` and a
performed read shows its value in `replies` is the model's choice (notes/assumptions/1.md, 2.md). -/
def Obligations.HostAccessesFollowTheWindow : Prop :=
  ∀ (s : State) (rest : List HostAccess),
    (∀ slot, s.queue = .read slot :: rest →
      step s = .next { s with queue := rest, replies := s.replies ++ [hostRead slot s] }) ∧
    (∀ slot v, s.queue = .write slot v :: rest → step s = hostWrite slot v { s with queue := rest }) ∧
    (∀ o : Offsets, o = s.cfg.host.offsets → (registerSlots o).Nodup →
      hostRead o.cmd s = 0 ∧ hostRead o.status s = statusWord s ∧ hostRead o.result s = s.result ∧
      hostRead o.din s = s.din.w0 ∧ hostRead (o.din + 1) s = s.din.w1 ∧
      hostRead (o.din + 2) s = s.din.w2 ∧ hostRead (o.din + 3) s = s.din.w3 ∧
      hostRead o.dout s = s.dout.w0 ∧ hostRead (o.dout + 1) s = s.dout.w1 ∧
      hostRead (o.dout + 2) s = s.dout.w2 ∧ hostRead (o.dout + 3) s = s.dout.w3 ∧
      (∀ k : Fin 8, hostRead (o.keybuf + BitVec.ofNat 5 k.val) s = s.keybuf[k.val]) ∧
      (∀ slot, slot ∉ registerSlots o → hostRead slot s = 0) ∧
      (∀ v, hostWrite o.cmd v s = execute v s) ∧
      (∀ v, hostWrite o.din v s = .next { s with din := { s.din with w0 := v } }) ∧
      (∀ v, hostWrite (o.din + 1) v s = .next { s with din := { s.din with w1 := v } }) ∧
      (∀ v, hostWrite (o.din + 2) v s = .next { s with din := { s.din with w2 := v } }) ∧
      (∀ v, hostWrite (o.din + 3) v s = .next { s with din := { s.din with w3 := v } }) ∧
      (∀ (k : Fin 8) v, hostWrite (o.keybuf + BitVec.ofNat 5 k.val) v s =
        .next { s with keybuf := s.keybuf.set k.val v }) ∧
      (∀ slot v, slot = o.status ∨ slot = o.result ∨ slot ∈ slotsFrom o.dout 4 ∨
          slot ∉ registerSlots o →
        hostWrite slot v s = .next s)) ∧
    (s.cfg.host.opcodes.all.Nodup → s.ksize ≠ .unset → s.mkValid = true →
      ∃ t, hostWrite s.cfg.host.offsets.cmd (encodeWith s.cfg.host.opcodes .setupEnc) s = .next t ∧
        t.decValid = false) ∧
    registerSlots Offsets.default =
      [0, 1, 2, 4, 5, 6, 7, 8, 9, 10, 11, 16, 17, 18, 19, 20, 21, 22, 23] ∧
    Opcodes.default.all = [1, 2, 3, 4, 5, 6, 7, 8, 9]

/-- Read after write at the port: after a write anywhere but `CMD`, a read-write register reads as the
value written to it and every other slot reads as before, for all offsets at which no two registers
fall together (20_memory.md section 5, point (a)). -/
def Obligations.WindowReadsSeeTheLatestWrite : Prop :=
  ∀ (s : State) (o : Offsets) (slot : BitVec 5) (v : Word),
    o = s.cfg.host.offsets → (registerSlots o).Nodup → slot ≠ o.cmd →
    ∃ t, hostWrite slot v s = .next t ∧
      ∀ slot' : BitVec 5, hostRead slot' t =
        if slot' = slot ∧ (slot ∈ slotsFrom o.din 4 ∨ slot ∈ slotsFrom o.keybuf 8)
        then v else hostRead slot' s

/-- `STATUS` field by field, its reset value, and that writing it does nothing and reading it has no
side effect, on a part with the offsets of rule R37 and the layout of rule R28. That a pending read
stands in `queue` and a performed one shows its value in `replies` is the model's choice
(notes/assumptions/1.md, 2.md). -/
def Obligations.StatusShowsTheContext : Prop :=
  (∀ s : State, s.cfg.host = HostInterface.default →
    (statusWord s).extractLsb' 0 2 = s.err ∧
    (statusWord s).getLsbD 2 = s.mkValid ∧
    (statusWord s).getLsbD 3 = s.encValid ∧
    (statusWord s).getLsbD 4 = s.decValid ∧
    (statusWord s).extractLsb' 5 2 =
      (match s.ksize with | .unset => 0 | .k128 => 1 | .k192 => 2 | .k256 => 3) ∧
    (statusWord s).extractLsb' 7 25 = 0 ∧
    hostRead 1 s = statusWord s ∧ (∀ v, hostWrite 1 v s = .next s) ∧
    ∀ rest, s.queue = .read 1 :: rest →
      step s = .next { s with queue := rest, replies := s.replies ++ [statusWord s] }) ∧
  ErrKind.invalidKey.code = 1 ∧ ErrKind.illegalCommand.code = 2 ∧ ErrKind.outOfRange.code = 3 ∧
  statusWord State.reset = 0

/-- The machine never stops: every access, legal or not, ends in a next state
(60_exceptions.md sections 1, 2 and 6); with no access pending it is idle and keeps all its state (that
the step then answers the same state is the model's choice, notes/assumptions/3.md). No step changes the
parameters, which the model holds in `cfg` (notes/assumptions/4.md). -/
def Obligations.EveryStepAnswersANextState : Prop :=
  ∀ s : State, (∃ t, step s = .next t ∧ t.cfg = s.cfg) ∧ (s.queue = [] → step s = .next s)

/-! ## Reset -/

/-- The state after reset, every item for which rule R130 gives a value, and that it is the context
state `U`. -/
def Obligations.ResetHoldsTheStatedValues : Prop :=
  State.reset.tables = tableBuild Config.default ∧ State.reset.ksize = .unset ∧
  State.reset.ksize.bits = 0 ∧ State.reset.ksize.rounds = 0 ∧
  State.reset.mkValid = false ∧ (∀ i : Fin 32, State.reset.masterKey[i.val] = 0) ∧
  State.reset.encValid = false ∧ State.reset.decValid = false ∧ hostRead 0 State.reset = 0 ∧
  State.reset.din = ⟨0, 0, 0, 0⟩ ∧ State.reset.dout = ⟨0, 0, 0, 0⟩ ∧
  (∀ k : Fin 8, State.reset.keybuf[k.val] = 0) ∧ State.reset.result = 0 ∧ State.reset.err = 0 ∧
  statusWord State.reset = 0 ∧ ctxState State.reset = .unset

/-- A reset event performs the sequence of rule R129 whatever the state was, with the tables built for
the machine's parameters. That the event stands in `queue` and that `queue`, `replies` and `cfg` are not
reset is the model's choice (notes/assumptions/1.md, 4.md, 9.md). -/
def Obligations.ResetEventPerformsTheSequence : Prop :=
  ∀ (s : State) (rest : List HostAccess), s.queue = .reset :: rest →
    ∃ t, step s = .next t ∧ t.tables = tableBuild s.cfg ∧
      t.ksize = .unset ∧ t.ksize.rounds = 0 ∧
      t.mkValid = false ∧ t.encValid = false ∧ t.decValid = false ∧
      (∀ i : Fin 32, t.masterKey[i.val] = 0) ∧ t.err = 0 ∧ t.result = 0 ∧
      t.din = ⟨0, 0, 0, 0⟩ ∧ t.dout = ⟨0, 0, 0, 0⟩ ∧ (∀ k : Fin 8, t.keybuf[k.val] = 0) ∧
      t.queue = rest ∧ t.replies = s.replies ∧ t.cfg = s.cfg

/-- `INIT` with an unsupported size ends in the reset state with `STATUS.ERR = 1`, under either policy;
with a supported one in the reset state with that size (43_commands.md section 6). `ERK`, `DRK` and the
working registers, which are unspecified after reset, are left open. For all offsets and all
distinct opcode numbers; that `CMD` wins a slot it shares is the model's choice
(notes/assumptions/20.md). That the accesses stand in `queue`
and that `queue`, `replies`, `cfg` and `fresh` are not reset is the model's choice
(notes/assumptions/1.md, 4.md, 9.md). -/
def Obligations.InitPseudoInstruction : Prop :=
  ∀ (s : State) (size : Nat) (rest : List HostAccess), size < 65536 →
    s.cfg.host.opcodes.all.Nodup → s.queue = initSize s.cfg size ++ rest →
    ∃ t u, step s = .next t ∧ step t = .next u ∧
      u = { State.reset with
        tables := tableBuild s.cfg
        ksize := (if size = 128 then .k128 else if size = 192 then .k192
          else if size = 256 then .k256 else .unset)
        err := (if size = 128 ∨ size = 192 ∨ size = 256 then 0 else 1)
        erk := u.erk, drk := u.drk, work := u.work
        cfg := s.cfg, fresh := s.fresh, queue := rest, replies := s.replies }

/-! ## Table Builder -/

/-- `GF_MUL` is the product of a field over XOR, every nonzero byte with an inverse, with the reduction of
`POLY` = 0x11B (40_table_builder.md sections 2 and 3). -/
def Obligations.GfMulIsAFieldProduct : Prop :=
  (∀ a b : Byte, gfMul a b = gfMul b a) ∧
  (∀ a b c : Byte, gfMul a (b ^^^ c) = gfMul a b ^^^ gfMul a c) ∧
  (∀ a b c : Byte, gfMul (gfMul a b) c = gfMul a (gfMul b c)) ∧
  (∀ a : Byte, gfMul a 0 = 0 ∧ gfMul 0 a = 0 ∧ gfMul a 1 = a) ∧
  (∀ a : Byte, a ≠ 0 → ∃ b : Byte, gfMul a b = 1) ∧
  gfMul 0x02 0x80 = 0x1B ∧ gfMul 0x03 0x03 = 0x05 ∧ gfMul 0x03 0xFF = 0x1A

/-- The `EXP` table of rule R56: its first entry, its recurrence, the recurrence's form without a
multiplier, the nonzero bytes each once, and the printed contents. -/
def Obligations.ExpTableHoldsThePowers : Prop :=
  look (buildExp gen) 0 = 1 ∧
  (∀ i : Byte, i ≠ 0 → look (buildExp gen) i = gfMul (look (buildExp gen) (i - 1)) gen) ∧
  (∀ e : Byte, gfMul e 0x03 = expStepShift e) ∧
  (∀ v : Byte, v ≠ 0 → ∃ i : Byte, i ≠ 255 ∧ look (buildExp gen) i = v ∧
    ∀ j : Byte, j ≠ 255 → look (buildExp gen) j = v → j = i) ∧
  look (buildExp gen) 255 = 1 ∧
  buildExp gen = romTable expRows

/-- The `LOG` table of rule R57: it inverts `EXP`, `LOG[1] = LOG[0] = 0`, the printed contents, and any
other table that inverts `EXP` in the same range gives the same S-boxes. -/
def Obligations.LogTableInvertsExp : Prop :=
  (∀ i : Byte, 1 ≤ i.toNat → i.toNat ≤ 254 →
    look (buildLog (buildExp gen)) (look (buildExp gen) i) = i) ∧
  (∀ v : Byte, v ≠ 0 → look (buildExp gen) (look (buildLog (buildExp gen)) v) = v) ∧
  (∀ v : Byte, (look (buildLog (buildExp gen)) v).toNat ≤ 254) ∧
  look (buildLog (buildExp gen)) 1 = 0 ∧ look (buildLog (buildExp gen)) 0 = 0 ∧
  buildLog (buildExp gen) = romTable logRows ∧
  (∀ log : Vector Byte 256,
    (∀ v : Byte, v ≠ 0 → look romTables.exp (look log v) = v ∧ (look log v).toNat ≤ 254) →
    buildS1 affA romTables.exp log = romTables.s1 ∧ buildS2 affB romTables.exp log = romTables.s2)

/-- `INV` is the multiplicative inverse, with 0 mapped to 0, and its three examples (rule R59). -/
def Obligations.InvIsTheFieldInverse : Prop :=
  inv romTables.exp romTables.log 0 = 0 ∧
  (∀ i : Byte, i ≠ 0 →
    inv romTables.exp romTables.log i =
      look romTables.exp (BitVec.ofNat 8 (255 - (look romTables.log i).toNat)) ∧
    1 ≤ 255 - (look romTables.log i).toNat ∧
    (255 - (look romTables.log i).toNat = 255 ↔ i = 1) ∧
    gfMul i (inv romTables.exp romTables.log i) = 1) ∧
  look romTables.exp 255 = 1 ∧
  (look romTables.log 0x02 = 25 ∧ look romTables.exp 230 = 0x8D) ∧
  (look romTables.log 0x53 = 48 ∧ look romTables.exp 207 = 0xCA) ∧
  inv romTables.exp romTables.log 0x01 = 0x01 ∧ inv romTables.exp romTables.log 0x02 = 0x8D ∧
  inv romTables.exp romTables.log 0x53 = 0xCA

/-- The two affine transforms in closed form, result bit `m` the parity of the input under row mask `m`,
and their linearity, for any matrices (40_table_builder.md sections 3 and 4). -/
def Obligations.AffineTransformsAreRowParities : Prop :=
  ∀ p : Byte,
    (∀ m : Fin 8,
      (affineA affA p).getLsbD m.val = parity (p &&& rowMaskA.getD m.val 0) ∧
      (affineB affB p).getLsbD m.val = parity (p &&& rowMaskB.getD m.val 0)) ∧
    (∀ (a b : BitMatrix) (q : Byte), affineA a (p ^^^ q) = affineA a p ^^^ affineA a q ∧
      affineB b (p ^^^ q) = affineB b p ^^^ affineB b q)

/-- The table build gives the contents the spec prints, and the S-boxes are permutations inverse in
pairs (40_table_builder.md sections 1 and 5). -/
def Obligations.TableBuildGivesThePrintedTables : Prop :=
  tableBuild Config.default = romTables ∧
  (∀ i : Byte, look romTables.x1 (look romTables.s1 i) = i ∧
    look romTables.s1 (look romTables.x1 i) = i ∧
    look romTables.x2 (look romTables.s2 i) = i ∧ look romTables.s2 (look romTables.x2 i) = i)

/-- The S-box and fused tables are the same for every generator element, whatever the other parameters
are (40_table_builder.md section 2). -/
def Obligations.TablesDoNotDependOnTheGenerator : Prop :=
  (∀ (cfg : Config) (g : Byte), IsGenerator cfg.gen → IsGenerator g →
    tableBuild cfg = { tableBuild { cfg with gen := g } with
      exp := (tableBuild cfg).exp, log := (tableBuild cfg).log }) ∧
  ∀ g : Byte, IsGenerator g →
    let tb := tableBuild { Config.default with gen := g }
    tb = { romTables with exp := tb.exp, log := tb.log }

/-- Every fused entry is the source byte in three byte lanes and zero in the fourth, whatever the
parameters are (40_table_builder.md section 6). -/
def Obligations.FusedEntriesReplicateTheByte : Prop :=
  ∀ (cfg : Config) (i : Byte),
    let tb := tableBuild cfg
    look tb.ts1 i = be32 0 (look tb.s1 i) (look tb.s1 i) (look tb.s1 i) ∧
    look tb.ts2 i = be32 (look tb.s2 i) 0 (look tb.s2 i) (look tb.s2 i) ∧
    look tb.tx1 i = be32 (look tb.x1 i) (look tb.x1 i) 0 (look tb.x1 i) ∧
    look tb.tx2 i = be32 (look tb.x2 i) (look tb.x2 i) (look tb.x2 i) 0

/-- No step changes the tables built for the machine's constants, a reset gives the same ones again, and
every `TBL_READ` returns their entry (40_table_builder.md section 7, rule R70). -/
def Obligations.TablesAreImmutable : Prop :=
  (∀ s t : State, s.tables = tableBuild s.cfg → step s = .next t →
    t.tables = tableBuild s.cfg) ∧
  (∀ (i : Instr) (s t : State), exec i s = .next t → t.tables = s.tables) ∧
  (∀ (sel : TableSel) (idx : Byte) (s t : State), s.tables = tableBuild s.cfg →
    exec (.tblRead sel idx) s = .next t → t.result = tableEntry (tableBuild s.cfg) sel idx)

/-! ## Round Engine -/

/-- Bytes and words are big-endian: byte `4k + m` of a block is byte position `B(3 - m)` of word `k`,
and packing inverts unpacking (20_memory.md section 2). -/
def Obligations.BlockBytesAreBigEndian : Prop :=
  (∀ (x : Block) (k : Fin 4) (m : Fin 4),
    x.bytes[4 * k.val + m.val] = ((x.word k.val) >>> (8 * (3 - m.val))).setWidth 8) ∧
  (∀ x : Block, load x.bytes = x) ∧
  (∀ v : Vector Byte 16, (load v).bytes = v)

/-- `MIX` in closed form, an involution and linear (41_round_engine.md section 3). -/
def Obligations.MixClosedForm : Prop :=
  (∀ a b c d : Word, mix ⟨a, b, c, d⟩ = ⟨a ^^^ b ^^^ c, a ^^^ c ^^^ d, a ^^^ b ^^^ d, b ^^^ c ^^^ d⟩) ∧
  (∀ t : Block, mix (mix t) = t) ∧
  (∀ t u : Block, mix (t.xor u) = (mix t).xor (mix u))

/-- The three byte permutations (rules R77, R78, R79), involutions, with their examples. -/
def Obligations.BytePermutationsOfAWord : Prop :=
  (∀ a b c d : Byte, badc (be32 a b c d) = be32 b a d c ∧ cdab (be32 a b c d) = be32 c d a b ∧
    dcba (be32 a b c d) = be32 d c b a) ∧
  (∀ w : Word, badc (badc w) = w ∧ cdab (cdab w) = w ∧ dcba (dcba w) = w ∧
    dcba w = badc (cdab w) ∧ dcba w = cdab (badc w)) ∧
  badc 0x11223344 = 0x22114433 ∧ badc 0x80000001 = 0x00800100 ∧
  cdab 0x11223344 = 0x33441122 ∧ cdab 0x80000001 = 0x00018000 ∧
  dcba 0x11223344 = 0x44332211 ∧ dcba 0x80000001 = 0x01000080

/-- `P_A` and `P_B`: the mixing network, the byte-lane step, the mixing network again; linear
involutions, with their examples (rules R82, R83). -/
def Obligations.DiffusionLayersAreInvolutions : Prop :=
  (∀ t : Block, pA t = mix (blA (mix t)) ∧ pB t = mix (blB (mix t))) ∧
  (∀ t : Block, pA (pA t) = t ∧ pB (pB t) = t) ∧
  (∀ t u : Block, pA (t.xor u) = (pA t).xor (pA u) ∧ pB (t.xor u) = (pB t).xor (pB u)) ∧
  pA ⟨0x01234567, 0x12345678, 0xA5A5A5A5, 0x0F1E2D3C⟩ =
    ⟨0x103A547E, 0x694F250B, 0xCFC7C7CF, 0x47566D7C⟩ ∧
  pB ⟨0x01234567, 0x12345678, 0xA5A5A5A5, 0x0F1E2D3C⟩ =
    ⟨0x547E103A, 0x250B694F, 0xC7CFCFC7, 0x6D7C4756⟩

/-- The substitution of one word of either type in closed form over the finished tables: the plain
S-box bytes, each result byte the XOR of three of them; and Type B is Type A on the swapped halves,
for any tables (41_round_engine.md section 2). -/
def Obligations.SubstitutionOfAWord : Prop :=
  (∀ (tb : Tables) (w : Word), slB tb w = slA tb (cdab w)) ∧
  ∀ w : Word,
    (let a := look romTables.s1 (byte3 w)
     let b := look romTables.s2 (byte2 w)
     let c := look romTables.x1 (byte1 w)
     let d := look romTables.x2 (byte0 w)
     slA romTables w = be32 (b ^^^ c ^^^ d) (a ^^^ c ^^^ d) (a ^^^ b ^^^ d) (a ^^^ b ^^^ c) ∧
       slA romTables w = lmix (be32 a b c d)) ∧
    (let a := look romTables.x1 (byte3 w)
     let b := look romTables.x2 (byte2 w)
     let c := look romTables.s1 (byte1 w)
     let d := look romTables.s2 (byte0 w)
     slB romTables w = be32 (a ^^^ b ^^^ d) (a ^^^ b ^^^ c) (b ^^^ c ^^^ d) (a ^^^ c ^^^ d))

/-- `DIFF` on the sixteen bytes of a block: every output byte is the XOR of the seven input bytes the
matrix names; `DIFF` is linear and its own inverse (41_round_engine.md section 5). -/
def Obligations.DiffusionByteMatrix : Prop :=
  (∀ b : Block,
    let x := b.bytes
    let y := (diff b).bytes
    y[0] = x[3] ^^^ x[4] ^^^ x[6] ^^^ x[8] ^^^ x[9] ^^^ x[13] ^^^ x[14] ∧
    y[1] = x[2] ^^^ x[5] ^^^ x[7] ^^^ x[8] ^^^ x[9] ^^^ x[12] ^^^ x[15] ∧
    y[2] = x[1] ^^^ x[4] ^^^ x[6] ^^^ x[10] ^^^ x[11] ^^^ x[12] ^^^ x[15] ∧
    y[3] = x[0] ^^^ x[5] ^^^ x[7] ^^^ x[10] ^^^ x[11] ^^^ x[13] ^^^ x[14] ∧
    y[4] = x[0] ^^^ x[2] ^^^ x[5] ^^^ x[8] ^^^ x[11] ^^^ x[14] ^^^ x[15] ∧
    y[5] = x[1] ^^^ x[3] ^^^ x[4] ^^^ x[9] ^^^ x[10] ^^^ x[14] ^^^ x[15] ∧
    y[6] = x[0] ^^^ x[2] ^^^ x[7] ^^^ x[9] ^^^ x[10] ^^^ x[12] ^^^ x[13] ∧
    y[7] = x[1] ^^^ x[3] ^^^ x[6] ^^^ x[8] ^^^ x[11] ^^^ x[12] ^^^ x[13] ∧
    y[8] = x[0] ^^^ x[1] ^^^ x[4] ^^^ x[7] ^^^ x[10] ^^^ x[13] ^^^ x[15] ∧
    y[9] = x[0] ^^^ x[1] ^^^ x[5] ^^^ x[6] ^^^ x[11] ^^^ x[12] ^^^ x[14] ∧
    y[10] = x[2] ^^^ x[3] ^^^ x[5] ^^^ x[6] ^^^ x[8] ^^^ x[13] ^^^ x[15] ∧
    y[11] = x[2] ^^^ x[3] ^^^ x[4] ^^^ x[7] ^^^ x[9] ^^^ x[12] ^^^ x[14] ∧
    y[12] = x[1] ^^^ x[2] ^^^ x[6] ^^^ x[7] ^^^ x[9] ^^^ x[11] ^^^ x[12] ∧
    y[13] = x[0] ^^^ x[3] ^^^ x[6] ^^^ x[7] ^^^ x[8] ^^^ x[10] ^^^ x[13] ∧
    y[14] = x[0] ^^^ x[3] ^^^ x[4] ^^^ x[5] ^^^ x[9] ^^^ x[11] ^^^ x[14] ∧
    y[15] = x[1] ^^^ x[2] ^^^ x[4] ^^^ x[5] ^^^ x[8] ^^^ x[10] ^^^ x[15]) ∧
  (∀ b : Block, diff (diff b) = b) ∧
  (∀ b c : Block, diff (b.xor c) = (diff b).xor (diff c))

/-- Both half-rounds are key add, the plain S-boxes of their type, then one and the same `DIFF`
(41_round_engine.md section 5). -/
def Obligations.HalfRoundsAreSubstituteThenDiffuse : Prop :=
  ∀ t k : Block,
    fA romTables t k = diff ((t.xor k).map fun w =>
      be32 (look romTables.s1 (byte3 w)) (look romTables.s2 (byte2 w))
        (look romTables.x1 (byte1 w)) (look romTables.x2 (byte0 w))) ∧
    fB romTables t k = diff ((t.xor k).map fun w =>
      be32 (look romTables.x1 (byte3 w)) (look romTables.x2 (byte2 w))
        (look romTables.s1 (byte1 w)) (look romTables.s2 (byte0 w)))

/-- The output transformation byte by byte, its all-zero corner case and its example (rule R88). -/
def Obligations.OutputTransformationBytes : Prop :=
  (∀ (tb : Tables) (t k1 k2 : Block) (i : Fin 4),
    let u := t.word i.val ^^^ k1.word i.val
    let v := k2.word i.val
    (outTransform tb t k1 k2)[4 * i.val + 0] = look tb.x1 (byte3 u) ^^^ byte3 v ∧
    (outTransform tb t k1 k2)[4 * i.val + 1] = look tb.x2 (byte2 u) ^^^ byte2 v ∧
    (outTransform tb t k1 k2)[4 * i.val + 2] = look tb.s1 (byte1 u) ^^^ byte1 v ∧
    (outTransform tb t k1 k2)[4 * i.val + 3] = look tb.s2 (byte0 u) ^^^ byte0 v) ∧
  (∀ i : Fin 4, (load (outTransform romTables ⟨0, 0, 0, 0⟩ ⟨0, 0, 0, 0⟩ ⟨0, 0, 0, 0⟩)).word i.val =
    0x523063E2) ∧
  load (outTransform romTables ⟨0x01234567, 0x12345678, 0xA5A5A5A5, 0x0F1E2D3C⟩
      ⟨0x11111111, 0x22222222, 0x33333333, 0x44444444⟩
      ⟨0x0F0AA16D, 0xAEE61BD7, 0xDFEE5A59, 0x9970FB35⟩) =
    ⟨0x7366812F, 0xA62A896F, 0xEADACA22, 0x55950232⟩

/-- `CRYPT` as a sequence: `R - 1` half-rounds of alternating types, the first Type A, each on the next
group, then the output transformation on the last eight words; `J` ends at `4 * (R + 1)`
(41_round_engine.md section 6). That `T` holds the last half-round's result at the end is the model's
reading (notes/assumptions/7.md). -/
def Obligations.CryptIsTheHalfRoundSequence : Prop :=
  ∀ (tb : Tables) (input : Vector Byte 16) (rk : Vector Word 68) (r : Nat),
    r = 12 ∨ r = 14 ∨ r = 16 →
    let t := (List.range (r - 1)).foldl
      (fun t n => if n % 2 = 0 then fA tb t (rkGroup rk (4 * n)) else fB tb t (rkGroup rk (4 * n)))
      (load input)
    crypt tb input rk r =
      { out := outTransform tb t (rkGroup rk (4 * (r - 1))) (rkGroup rk (4 * r))
        t := t, j := 4 * (r + 1) }

/-- `CRYPT` reads the `4 * (R + 1)` meaningful words of the schedule and no others
(10_state.md section 4, 41_round_engine.md section 6). -/
def Obligations.CryptReadsOnlyTheSchedule : Prop :=
  ∀ (tb : Tables) (input : Vector Byte 16) (rk rk' : Vector Word 68) (k : KeySize), k ≠ .unset →
    (∀ i, i < k.rkWords → rkWord rk i = rkWord rk' i) →
    crypt tb input rk k.rounds = crypt tb input rk' k.rounds

/-- The round trip: the Round Engine under the derived decryption schedule inverts the Round Engine
under any encryption schedule, for every key size and every block
(42_key_scheduler.md section 4, point (b)). -/
def Obligations.DecryptionScheduleInvertsEncryption : Prop :=
  ∀ (k : KeySize) (erk old : Vector Word 68) (p : Vector Byte 16), k ≠ .unset →
    (crypt romTables (crypt romTables p erk k.rounds).out (decKeys erk k old) k.rounds).out = p

/-- The published test vectors of the three key sizes (95_test_vectors.md section 1.2). -/
def Obligations.PublishedVectorsAreReproduced : Prop :=
  ∀ k : KeySize, k ≠ .unset →
    let key : Vector Byte 32 := tabulate 32 fun i => if i < k.bits / 8 then BitVec.ofNat 8 i else 0
    let block : Vector Byte 16 := tabulate 16 fun i => BitVec.ofNat 8 (17 * i)
    let erk := encKeys (keyVectors romTables Config.default key k).w k (tabulate 68 fun _ => 0)
    load (crypt romTables block erk k.rounds).out =
      (match k with
      | .unset => ⟨0, 0, 0, 0⟩
      | .k128 => ⟨0xD718FBD6, 0xAB644C73, 0x9DA95F3B, 0xE6451778⟩
      | .k192 => ⟨0x26449C18, 0x05DBE7AA, 0x25A468CE, 0x263A9E79⟩
      | .k256 => ⟨0xF92BD7C7, 0x9FB72E2F, 0x2B8F80C1, 0x972D24FC⟩)

/-! ## Key Scheduler -/

/-- The 128-bit rotation, as one number and in words for `n = 32*qw + r` with `1 <= r <= 31`, with the
corner cases and examples of rule R96. -/
def Obligations.RotationOf128BitsInWords : Prop :=
  (∀ (y : Block) (n : Nat), 0 < n → n < 128 →
    block128 (ror128 y n) = (block128 y >>> n) ||| (block128 y <<< (128 - n))) ∧
  (∀ (y : Block) (qw r : Nat) (i : Fin 4), qw < 4 → 1 ≤ r → r ≤ 31 →
    (ror128 y (32 * qw + r)).word i.val =
      (y.word ((i.val + 4 - qw) % 4) >>> r) ||| (y.word ((i.val + 3 - qw) % 4) <<< (32 - r))) ∧
  ror128 ⟨0, 0, 0, 1⟩ 19 = ⟨0x00002000, 0, 0, 0⟩ ∧
  ror128 ⟨0x80000000, 0, 0, 0⟩ 19 = ⟨0x00001000, 0, 0, 0⟩ ∧
  [19, 31, 67, 97, 109].map (ror128 ⟨0x01234567, 0x12345678, 0xA5A5A5A5, 0x0F1E2D3C⟩) =
    [⟨0xC5A78024, 0x68ACE246, 0x8ACF14B4, 0xB4B4A1E3⟩, ⟨0x1E3C5A78, 0x02468ACE, 0x2468ACF1, 0x4B4B4B4A⟩,
     ⟨0x14B4B4B4, 0xA1E3C5A7, 0x802468AC, 0xE2468ACF⟩, ⟨0x891A2B3C, 0x52D2D2D2, 0x878F169E, 0x0091A2B3⟩,
     ⟨0x2B3891A2, 0xB3C52D2D, 0x2D2878F1, 0x69E0091A⟩]

/-- The key split and the three state-vector steps for each key size, with the constants `KRK` in the
order of rule R93 and the half-round types of `KS_ORDER`, for any values of the parameters
(42_key_scheduler.md section 2); and `SETUP_ENC` leaves those vectors in the working registers `W`
(the contents of `W` between commands are the model's reading, notes/assumptions/7.md). -/
def Obligations.StateVectorSteps : Prop :=
  (∀ (tb : Tables) (cfg : Config) (mk : Vector Byte 32) (k : KeySize) (c1 c2 c3 kr : Block),
    (k = .k128 ∧ c1 = cfg.krk[0] ∧ c2 = cfg.krk[1] ∧ c3 = cfg.krk[2] ∧ kr = ⟨0, 0, 0, 0⟩) ∨
    (k = .k192 ∧ c1 = cfg.krk[1] ∧ c2 = cfg.krk[2] ∧ c3 = cfg.krk[0] ∧
      kr = ⟨be32 mk[16] mk[17] mk[18] mk[19], be32 mk[20] mk[21] mk[22] mk[23], 0, 0⟩) ∨
    (k = .k256 ∧ c1 = cfg.krk[2] ∧ c2 = cfg.krk[0] ∧ c3 = cfg.krk[1] ∧
      kr = ⟨be32 mk[16] mk[17] mk[18] mk[19], be32 mk[20] mk[21] mk[22] mk[23],
        be32 mk[24] mk[25] mk[26] mk[27], be32 mk[28] mk[29] mk[30] mk[31]⟩) →
    let w0 : Block := ⟨be32 mk[0] mk[1] mk[2] mk[3], be32 mk[4] mk[5] mk[6] mk[7],
      be32 mk[8] mk[9] mk[10] mk[11], be32 mk[12] mk[13] mk[14] mk[15]⟩
    (cfg.ksOrder = .aba →
      let w1 := (fA tb w0 c1).xor kr
      let w2 := (fB tb w1 c2).xor w0
      (keyVectors tb cfg mk k).w = #v[w0, w1, w2, (fA tb w2 c3).xor w1]) ∧
    (cfg.ksOrder = .bab →
      let w1 := (fB tb w0 c1).xor kr
      let w2 := (fA tb w1 c2).xor w0
      (keyVectors tb cfg mk k).w = #v[w0, w1, w2, (fB tb w2 c3).xor w1])) ∧
  ∀ s : State, s.ksize ≠ .unset → s.mkValid = true →
    ∃ t, exec .setupEnc s = .next t ∧ t.work.w = (contextVectors s).w

/-- Only the first `KSIZE/8` bytes of the master key matter: two keys that agree on them give the same
state vectors, whatever the longer key's other bytes are (42_key_scheduler.md section 2,
43_commands.md section 2). -/
def Obligations.OnlyTheDeclaredKeyBytesMatter : Prop :=
  ∀ (tb : Tables) (cfg : Config) (mk mk' : Vector Byte 32) (k : KeySize), k ≠ .unset →
    (∀ i : Fin 32, i.val < k.bits / 8 → mk[i.val] = mk'[i.val]) →
    keyVectors tb cfg mk k = keyVectors tb cfg mk' k

/-- The group sequence of rule R98: which vectors and which rotation give each group, for each key
size; and the words beyond the schedule keep what they held. -/
def Obligations.EncryptionScheduleGroups : Prop :=
  ∀ (w : Vector Block 4) (k : KeySize) (old : Vector Word 68), k ≠ .unset →
    (∀ (g : Nat) (i : Fin 4), g < k.rounds + 1 →
      rkWord (encKeys w k old) (4 * g + i.val) =
        (w[g % 4]).word i.val ^^^
          (ror128 (w[(g + 1) % 4]) ([19, 31, 67, 97, 109].getD (g / 4) 0)).word i.val) ∧
    (∀ i, k.rkWords ≤ i → i < 68 → rkWord (encKeys w k old) i = rkWord old i) ∧
    k.rkWords = (match k with | .unset => 4 | .k128 => 52 | .k192 => 60 | .k256 => 68)

/-- The decryption derivation in closed form (rule R100): the first and last groups exchanged, every
inner group the `DIFF` of the mirrored one; the words beyond keep what they held; applied twice it
gives the schedule back. -/
def Obligations.DecryptionScheduleClosedForm : Prop :=
  ∀ (erk old : Vector Word 68) (k : KeySize), k ≠ .unset →
    rkGroup (decKeys erk k old) 0 = rkGroup erk (4 * k.rounds) ∧
    rkGroup (decKeys erk k old) (4 * k.rounds) = rkGroup erk 0 ∧
    (∀ g, 1 ≤ g → g < k.rounds →
      rkGroup (decKeys erk k old) (4 * g) = diff (rkGroup erk (4 * (k.rounds - g)))) ∧
    (∀ i, k.rkWords ≤ i → i < 68 → rkWord (decKeys erk k old) i = rkWord old i) ∧
    (∀ (old' : Vector Word 68) (i : Nat), i < k.rkWords →
      rkWord (decKeys (decKeys erk k old) k old') i = rkWord erk i)

/-! ## Commands -/

/-- `SET_KEY_SIZE` (rule R103): an accepted size discards the key and both schedules and erases
nothing; any other size is `InvalidKey`, with the failure effect of the policy. -/
def Obligations.SetKeySizeAcceptsOrRejects : Prop :=
  ∀ (s : State),
    (∀ (size : Nat) (k : KeySize) (nr : Nat),
      (size = 128 ∧ k = .k128 ∧ nr = 12) ∨ (size = 192 ∧ k = .k192 ∧ nr = 14) ∨
        (size = 256 ∧ k = .k256 ∧ nr = 16) →
      exec (.setKeySize size) s = .next { s with
        ksize := k, mkValid := false, encValid := false, decValid := false, err := 0 } ∧
      k.bits = size ∧ k.rounds = nr) ∧
    (∀ size : Nat, size ≠ 128 → size ≠ 192 → size ≠ 256 →
      (s.cfg.ksizeFailPolicy = .keep → exec (.setKeySize size) s = .next { s with err := 1 }) ∧
      (s.cfg.ksizeFailPolicy = .clear → exec (.setKeySize size) s = .next { s with
        ksize := .unset, mkValid := false, encValid := false, decValid := false, err := 1 }))

/-- `GET_KEY_SIZE` (rule R104): the declared size, 0 when unset, and it never fails. -/
def Obligations.GetKeySizeReturnsTheSize : Prop :=
  ∀ s : State, exec .getKeySize s = .next { s with
    result := (match s.ksize with | .unset => 0 | .k128 => 128 | .k192 => 192 | .k256 => 256)
    err := 0 }

/-- `SET_KEY` (rule R105): with a size set and enough bytes, the first `min(LEN, 32)` bytes of `KEYBUF`
then zeros become the master key and both schedules are discarded; otherwise `InvalidKey`. -/
def Obligations.SetKeyStoresTheKey : Prop :=
  ∀ (s : State) (len : Nat),
    (s.ksize ≠ .unset → s.ksize.bits ≤ len * 8 →
      ∃ key : Vector Byte 32,
        exec (.setKey len) s = .next { s with
          masterKey := key, mkValid := true, encValid := false, decValid := false, err := 0 } ∧
        ∀ i : Fin 32, key[i.val] =
          if i.val < min len 32 then
            ((s.keybuf[i.val / 4]'(by have := i.isLt; omega)) >>> (8 * (3 - i.val % 4))).setWidth 8
          else 0) ∧
    (s.ksize = .unset ∨ len * 8 < s.ksize.bits → exec (.setKey len) s = .next { s with err := 1 })

/-- `SETUP_ENC` (rule R106): with a size and a key, the encryption schedule is computed afresh from the
master key and the decryption schedule discarded; otherwise `InvalidKey`. The working registers are left
open here. -/
def Obligations.SetupEncBuildsTheEncryptionSchedule : Prop :=
  ∀ s : State,
    (s.ksize ≠ .unset → s.mkValid = true →
      ∃ (erk : Vector Word 68) (work : Work),
        exec .setupEnc s = .next { s with
          decValid := false, erk := erk, encValid := true, work := work, err := 0 } ∧
        (∀ i, i < s.ksize.rkWords → rkWord erk i = contextEncWord s i) ∧
        (∀ i, s.ksize.rkWords ≤ i → i < 68 → rkWord erk i = rkWord s.erk i)) ∧
    (s.ksize = .unset ∨ s.mkValid = false → exec .setupEnc s = .next { s with err := 1 })

/-- `SETUP_DEC` (rule R107): the encryption schedule is kept where present and computed where absent,
and the decryption schedule is derived from it; `InvalidKey` where neither exists. -/
def Obligations.SetupDecDerivesTheDecryptionSchedule : Prop :=
  ∀ s : State,
    (s.ksize ≠ .unset → s.encValid = true ∨ s.mkValid = true →
      ∃ (erk drk : Vector Word 68) (work : Work) (fresh : Nat),
        exec .setupDec s = .next { s with
          erk := erk, encValid := true, drk := drk, decValid := true, work := work, fresh := fresh,
          err := 0 } ∧
        (s.encValid = true → erk = s.erk) ∧
        (s.encValid = false →
          (∀ i, i < s.ksize.rkWords → rkWord erk i = contextEncWord s i) ∧
          (∀ i, s.ksize.rkWords ≤ i → i < 68 → rkWord erk i = rkWord s.erk i)) ∧
        drk = decKeys erk s.ksize s.drk) ∧
    (s.ksize = .unset ∨ (s.encValid = false ∧ s.mkValid = false) →
      exec .setupDec s = .next { s with err := 1 })

/-- `ENCRYPT` (rule R108): `DOUT` becomes the block operation on `DIN` under the encryption schedule,
which is computed first where it is absent (and the decryption schedule then discarded); otherwise
`InvalidKey`. -/
def Obligations.EncryptProducesTheBlock : Prop :=
  ∀ s : State,
    (s.ksize ≠ .unset → s.encValid = true ∨ s.mkValid = true →
      ∃ (erk : Vector Word 68) (work : Work),
        exec .encrypt s = .next { s with
          decValid := (s.decValid && s.encValid), erk := erk, encValid := true, work := work,
          dout := load (crypt s.tables s.din.bytes erk s.ksize.rounds).out, err := 0 } ∧
        (s.encValid = true → erk = s.erk) ∧
        (s.encValid = false →
          (∀ i, i < s.ksize.rkWords → rkWord erk i = contextEncWord s i) ∧
          (∀ i, s.ksize.rkWords ≤ i → i < 68 → rkWord erk i = rkWord s.erk i))) ∧
    (s.ksize = .unset ∨ (s.encValid = false ∧ s.mkValid = false) →
      exec .encrypt s = .next { s with err := 1 })

/-- `DECRYPT` (rule R109): the same Round Engine under the decryption schedule, which is derived first
where it is absent, from an encryption schedule computed first where that is absent; otherwise
`InvalidKey`. -/
def Obligations.DecryptProducesTheBlock : Prop :=
  ∀ s : State,
    (s.ksize ≠ .unset → s.decValid = true ∨ s.encValid = true ∨ s.mkValid = true →
      ∃ (erk drk : Vector Word 68) (work : Work) (fresh : Nat),
        exec .decrypt s = .next { s with
          erk := erk, encValid := (s.encValid || !s.decValid), drk := drk, decValid := true,
          work := work, fresh := fresh,
          dout := load (crypt s.tables s.din.bytes drk s.ksize.rounds).out, err := 0 } ∧
        (s.decValid = true → drk = s.drk ∧ erk = s.erk) ∧
        (s.decValid = false → drk = decKeys erk s.ksize s.drk ∧
          (s.encValid = true → erk = s.erk) ∧
          (s.encValid = false →
            (∀ i, i < s.ksize.rkWords → rkWord erk i = contextEncWord s i) ∧
            (∀ i, s.ksize.rkWords ≤ i → i < 68 → rkWord erk i = rkWord s.erk i)))) ∧
    (s.ksize = .unset ∨ (s.decValid = false ∧ s.encValid = false ∧ s.mkValid = false) →
      exec .decrypt s = .next { s with err := 1 })

/-- `TBL_READ` (rule R110): the selected entry, bytes zero-extended, in every state; with the rule's
eight examples after reset. -/
def Obligations.TblReadReturnsTheEntry : Prop :=
  (∀ (s : State) (idx : Byte),
    exec (.tblRead .s1 idx) s = .next { s with result := zext32 (look s.tables.s1 idx), err := 0 } ∧
    exec (.tblRead .s2 idx) s = .next { s with result := zext32 (look s.tables.s2 idx), err := 0 } ∧
    exec (.tblRead .x1 idx) s = .next { s with result := zext32 (look s.tables.x1 idx), err := 0 } ∧
    exec (.tblRead .x2 idx) s = .next { s with result := zext32 (look s.tables.x2 idx), err := 0 } ∧
    exec (.tblRead .ts1 idx) s = .next { s with result := look s.tables.ts1 idx, err := 0 } ∧
    exec (.tblRead .ts2 idx) s = .next { s with result := look s.tables.ts2 idx, err := 0 } ∧
    exec (.tblRead .tx1 idx) s = .next { s with result := look s.tables.tx1 idx, err := 0 } ∧
    exec (.tblRead .tx2 idx) s = .next { s with result := look s.tables.tx2 idx, err := 0 }) ∧
  (∀ sel : TableSel, exec (.tblRead sel 0) State.reset = .next { State.reset with
    result := (match sel with
      | .s1 => 0x00000063 | .s2 => 0x000000E2 | .x1 => 0x00000052 | .x2 => 0x00000030
      | .ts1 => 0x00636363 | .ts2 => 0xE200E2E2 | .tx1 => 0x52520052 | .tx2 => 0x30303000) })

/-- `RK_READ` (rule R111): a word of a present schedule; `InvalidKey` for an absent schedule, before
`OutOfRange` for an index beyond its length. -/
def Obligations.RkReadReturnsTheWord : Prop :=
  ∀ (s : State) (idx : Nat),
    (s.encValid = true → idx < 4 * (s.ksize.rounds + 1) →
      exec (.rkRead .erk idx) s = .next { s with result := rkWord s.erk idx, err := 0 }) ∧
    (s.decValid = true → idx < 4 * (s.ksize.rounds + 1) →
      exec (.rkRead .drk idx) s = .next { s with result := rkWord s.drk idx, err := 0 }) ∧
    (s.encValid = false → exec (.rkRead .erk idx) s = .next { s with err := 1 }) ∧
    (s.decValid = false → exec (.rkRead .drk idx) s = .next { s with err := 1 }) ∧
    (s.encValid = true → 4 * (s.ksize.rounds + 1) ≤ idx →
      exec (.rkRead .erk idx) s = .next { s with err := 3 }) ∧
    (s.decValid = true → 4 * (s.ksize.rounds + 1) ≤ idx →
      exec (.rkRead .drk idx) s = .next { s with err := 3 })

/-! ## Errors and frames over all commands -/

/-- `InvalidKey` is raised on exactly the causes of rule R117. Then `STATUS.ERR` is 1 and nothing else
changes; for a rejected size under the policy `clear` the context is cleared as well. -/
def Obligations.InvalidKeyHasExactlyTheListedCauses : Prop :=
  ∀ (i : Instr) (s t : State), exec i s = .next t →
    (t.err = 1 ↔ invalidKeyCause i s) ∧
    (invalidKeyCause i s →
      ((∃ size, i = .setKeySize size) ∧ s.cfg.ksizeFailPolicy = .clear →
        t = { s with ksize := .unset, mkValid := false, encValid := false, decValid := false,
                     err := 1 }) ∧
      (¬ ((∃ size, i = .setKeySize size) ∧ s.cfg.ksizeFailPolicy = .clear) →
        t = { s with err := 1 }))

/-- `OutOfRange` is raised by `RK_READ` alone, when the selected schedule is present and the index is
at or beyond its length (rule R118). -/
def Obligations.OutOfRangeHasExactlyOneCause : Prop :=
  ∀ (i : Instr) (s t : State), exec i s = .next t →
    (t.err = 3 ↔ ∃ sched idx, i = .rkRead sched idx ∧ schedValid s sched = true ∧
      4 * (s.ksize.rounds + 1) ≤ idx)

/-- A command that ends with an error changes `STATUS.ERR` and nothing else, with the one exception of
`SET_KEY_SIZE` under `clear`, which clears the context (43_commands.md section 1, 60_exceptions.md
section 2). -/
def Obligations.FailedCommandsChangeOnlyErr : Prop :=
  ∀ (c : Word) (s t : State), execute c s = .next t → t.err ≠ 0 →
    ((∃ size, decodeWith s.cfg.host.opcodes c = .ok (.setKeySize size)) ∧ s.cfg.ksizeFailPolicy = .clear →
      t = { s with ksize := .unset, mkValid := false, encValid := false, decValid := false,
                   err := 1 }) ∧
    (¬ ((∃ size, decodeWith s.cfg.host.opcodes c = .ok (.setKeySize size)) ∧
        s.cfg.ksizeFailPolicy = .clear) →
      t = { s with err := t.err })

/-- The frame of all nine commands: what no command changes, and for every other part of the state the
commands that alone may change it (43_commands.md sections 1 to 5, 10_state.md sections 4 to 6).
`STATUS.ERR` is written by every command. `cfg`, `queue`, `replies` and `fresh` are the model's own
fields (notes/assumptions/1.md, 2.md, 4.md, 8.md). -/
def Obligations.CommandsChangeOnlyTheirOwnState : Prop :=
  ∀ (i : Instr) (s t : State), exec i s = .next t →
    (t.din = s.din ∧ t.keybuf = s.keybuf ∧ t.tables = s.tables ∧ t.cfg = s.cfg ∧
      t.queue = s.queue ∧ t.replies = s.replies) ∧
    (t.result ≠ s.result →
      i = .getKeySize ∨ (∃ sel idx, i = .tblRead sel idx) ∨ (∃ sched idx, i = .rkRead sched idx)) ∧
    (t.dout ≠ s.dout → i = .encrypt ∨ i = .decrypt) ∧
    (t.masterKey ≠ s.masterKey → ∃ len, i = .setKey len) ∧
    (t.ksize ≠ s.ksize → ∃ size, i = .setKeySize size) ∧
    (t.mkValid ≠ s.mkValid → (∃ size, i = .setKeySize size) ∨ (∃ len, i = .setKey len)) ∧
    (t.encValid ≠ s.encValid →
      (∃ size, i = .setKeySize size) ∨ (∃ len, i = .setKey len) ∨ i = .setupEnc ∨ i = .setupDec ∨
        i = .encrypt ∨ i = .decrypt) ∧
    (t.decValid ≠ s.decValid →
      (∃ size, i = .setKeySize size) ∨ (∃ len, i = .setKey len) ∨ i = .setupEnc ∨ i = .setupDec ∨
        i = .encrypt ∨ i = .decrypt) ∧
    (t.erk ≠ s.erk →
      i = .setupEnc ∨
        ((i = .setupDec ∨ i = .encrypt ∨ i = .decrypt) ∧ s.encValid = false ∧ t.encValid = true)) ∧
    (t.drk ≠ s.drk → i = .setupDec ∨ i = .decrypt) ∧
    (t.work ≠ s.work → i = .setupEnc ∨ i = .setupDec ∨ i = .encrypt ∨ i = .decrypt) ∧
    (t.fresh ≠ s.fresh → i = .setupDec ∨ i = .decrypt)

/-- Writing `KEYBUF` reaches the machine through `SET_KEY` alone: every other command does the same
whatever `KEYBUF` holds (20_memory.md section 5, 10_state.md section 4). -/
def Obligations.KeybufMattersToSetKeyAlone : Prop :=
  ∀ (i : Instr) (s t : State) (kb : Vector Word 8), (∀ len, i ≠ .setKey len) →
    exec i s = .next t → exec i { s with keybuf := kb } = .next { t with keybuf := kb }

/-! ## The context over all steps -/

/-- The context invariants hold at reset (10_state.md section 4). -/
def Obligations.ResetMeetsTheContextInvariants : Prop := ContextInv State.reset

/-- Every step keeps the context invariants (a) to (e), from every state that has them
(10_state.md section 4). -/
def Obligations.EveryStepKeepsTheContextInvariants : Prop :=
  ∀ s t : State, ContextInv s → step s = .next t → ContextInv t

/-- The context state machine: every entry of its transition table, for the nine commands and for a reset
event (43_commands.md section 6). That the event stands in `queue` is the model's choice
(notes/assumptions/1.md). -/
def Obligations.ContextStateMachine : Prop :=
  (∀ (i : Instr) (s t : State), ContextInv s → exec i s = .next t →
    ctxState t = (transition s.cfg.ksizeFailPolicy s.ksize.bits i (ctxState s)).1 ∧
    (t.err = 1 ↔ (transition s.cfg.ksizeFailPolicy s.ksize.bits i (ctxState s)).2 = true)) ∧
  ∀ (s : State) (rest : List HostAccess), s.queue = .reset :: rest →
    ∃ t, step s = .next t ∧ ctxState t = .unset

/-- A lazy setup is identical in effect to the setup command issued just before
(43_commands.md section 4). -/
def Obligations.LazySetupIsTheSetupIssuedBefore : Prop :=
  ∀ s : State, s.ksize ≠ .unset → s.mkValid = true →
    (s.encValid = false →
      ∃ t, exec .setupEnc s = .next t ∧ exec .encrypt s = exec .encrypt t) ∧
    (s.decValid = false →
      ∃ t, exec .setupDec s = .next t ∧ exec .decrypt s = exec .decrypt t)

/-- Encrypting, moving `DOUT` to `DIN` and decrypting gives the block back, from every state with the
context invariants, the tables of the default parameters and a key, for every key size, either
`KS_ORDER` and any `KRK`
(42_key_scheduler.md section 4, 95_test_vectors.md section 1.1, property T1). -/
def Obligations.EncryptThenDecryptReturnsTheBlock : Prop :=
  ∀ s : State, ContextInv s → TablesBuilt s → s.mkValid = true →
    ∃ t u, exec .encrypt s = .next t ∧ t.err = 0 ∧
      exec .decrypt { t with din := t.dout } = .next u ∧ u.err = 0 ∧ u.dout = s.din

/-- Nothing the spec leaves unspecified reaches the host: states that differ only in working registers,
free values, absent schedules or keys and words beyond the schedule answer every read alike and stay
so under every step (70_reset_and_hazards.md section 3). -/
def Obligations.UnspecifiedStateIsNeverObserved : Prop :=
  (∀ (s s' : State) (slot : BitVec 5), SameToHost s s' → hostRead slot s = hostRead slot s') ∧
  (∀ s s' t t' : State, SameToHost s s' → step s = .next t → step s' = .next t' → SameToHost t t')
end

