-- ==== Sys2Proof/Laws/State.lean ====
section
/-! SUPPORT. One lemma per field per named state update, each true by definition. -/

namespace Sys2Proof.Machine

@[simp] theorem setContextSize_tables (k : KeySize) (s : State) :
    (setContextSize k s).tables = s.tables := rfl

@[simp] theorem setContextSize_ksize (k : KeySize) (s : State) :
    (setContextSize k s).ksize = k := rfl

@[simp] theorem setContextSize_mkValid (k : KeySize) (s : State) :
    (setContextSize k s).mkValid = false := rfl

@[simp] theorem setContextSize_masterKey (k : KeySize) (s : State) :
    (setContextSize k s).masterKey = s.masterKey := rfl

@[simp] theorem setContextSize_encValid (k : KeySize) (s : State) :
    (setContextSize k s).encValid = false := rfl

@[simp] theorem setContextSize_erk (k : KeySize) (s : State) :
    (setContextSize k s).erk = s.erk := rfl

@[simp] theorem setContextSize_decValid (k : KeySize) (s : State) :
    (setContextSize k s).decValid = false := rfl

@[simp] theorem setContextSize_drk (k : KeySize) (s : State) :
    (setContextSize k s).drk = s.drk := rfl

@[simp] theorem setContextSize_err (k : KeySize) (s : State) :
    (setContextSize k s).err = s.err := rfl

@[simp] theorem setContextSize_result (k : KeySize) (s : State) :
    (setContextSize k s).result = s.result := rfl

@[simp] theorem setContextSize_din (k : KeySize) (s : State) :
    (setContextSize k s).din = s.din := rfl

@[simp] theorem setContextSize_dout (k : KeySize) (s : State) :
    (setContextSize k s).dout = s.dout := rfl

@[simp] theorem setContextSize_keybuf (k : KeySize) (s : State) :
    (setContextSize k s).keybuf = s.keybuf := rfl

@[simp] theorem setContextSize_work (k : KeySize) (s : State) :
    (setContextSize k s).work = s.work := rfl

@[simp] theorem setContextSize_cfg (k : KeySize) (s : State) :
    (setContextSize k s).cfg = s.cfg := rfl

@[simp] theorem setContextSize_fresh (k : KeySize) (s : State) :
    (setContextSize k s).fresh = s.fresh := rfl

@[simp] theorem setContextSize_queue (k : KeySize) (s : State) :
    (setContextSize k s).queue = s.queue := rfl

@[simp] theorem setContextSize_replies (k : KeySize) (s : State) :
    (setContextSize k s).replies = s.replies := rfl

@[simp] theorem encSetup_tables (s : State) :
    (encSetup s).tables = s.tables := rfl

@[simp] theorem encSetup_ksize (s : State) :
    (encSetup s).ksize = s.ksize := rfl

@[simp] theorem encSetup_mkValid (s : State) :
    (encSetup s).mkValid = s.mkValid := rfl

@[simp] theorem encSetup_masterKey (s : State) :
    (encSetup s).masterKey = s.masterKey := rfl

@[simp] theorem encSetup_encValid (s : State) :
    (encSetup s).encValid = true := rfl

@[simp] theorem encSetup_erk (s : State) :
    (encSetup s).erk = encKeys (contextVectors s).w s.ksize s.erk := rfl

@[simp] theorem encSetup_decValid (s : State) :
    (encSetup s).decValid = false := rfl

@[simp] theorem encSetup_drk (s : State) :
    (encSetup s).drk = s.drk := rfl

@[simp] theorem encSetup_err (s : State) :
    (encSetup s).err = s.err := rfl

@[simp] theorem encSetup_result (s : State) :
    (encSetup s).result = s.result := rfl

@[simp] theorem encSetup_din (s : State) :
    (encSetup s).din = s.din := rfl

@[simp] theorem encSetup_dout (s : State) :
    (encSetup s).dout = s.dout := rfl

@[simp] theorem encSetup_keybuf (s : State) :
    (encSetup s).keybuf = s.keybuf := rfl

@[simp] theorem encSetup_work (s : State) :
    (encSetup s).work = 
      { t := (contextVectors s).t, w := (contextVectors s).w, q := (contextVectors s).q
        j := BitVec.ofNat 7 s.ksize.rkWords } := rfl

@[simp] theorem encSetup_cfg (s : State) :
    (encSetup s).cfg = s.cfg := rfl

@[simp] theorem encSetup_fresh (s : State) :
    (encSetup s).fresh = s.fresh := rfl

@[simp] theorem encSetup_queue (s : State) :
    (encSetup s).queue = s.queue := rfl

@[simp] theorem encSetup_replies (s : State) :
    (encSetup s).replies = s.replies := rfl

@[simp] theorem deriveDec_tables (s : State) :
    (deriveDec s).tables = s.tables := rfl

@[simp] theorem deriveDec_ksize (s : State) :
    (deriveDec s).ksize = s.ksize := rfl

@[simp] theorem deriveDec_mkValid (s : State) :
    (deriveDec s).mkValid = s.mkValid := rfl

@[simp] theorem deriveDec_masterKey (s : State) :
    (deriveDec s).masterKey = s.masterKey := rfl

@[simp] theorem deriveDec_encValid (s : State) :
    (deriveDec s).encValid = s.encValid := rfl

@[simp] theorem deriveDec_erk (s : State) :
    (deriveDec s).erk = s.erk := rfl

@[simp] theorem deriveDec_decValid (s : State) :
    (deriveDec s).decValid = true := rfl

@[simp] theorem deriveDec_drk (s : State) :
    (deriveDec s).drk = decKeys s.erk s.ksize s.drk := rfl

@[simp] theorem deriveDec_err (s : State) :
    (deriveDec s).err = s.err := rfl

@[simp] theorem deriveDec_result (s : State) :
    (deriveDec s).result = s.result := rfl

@[simp] theorem deriveDec_din (s : State) :
    (deriveDec s).din = s.din := rfl

@[simp] theorem deriveDec_dout (s : State) :
    (deriveDec s).dout = s.dout := rfl

@[simp] theorem deriveDec_keybuf (s : State) :
    (deriveDec s).keybuf = s.keybuf := rfl

@[simp] theorem deriveDec_work (s : State) :
    (deriveDec s).work = { s.work with t := Config.freeT s.fresh, j := Config.freeJ s.fresh } := rfl

@[simp] theorem deriveDec_cfg (s : State) :
    (deriveDec s).cfg = s.cfg := rfl

@[simp] theorem deriveDec_fresh (s : State) :
    (deriveDec s).fresh = s.fresh + 1 := rfl

@[simp] theorem deriveDec_queue (s : State) :
    (deriveDec s).queue = s.queue := rfl

@[simp] theorem deriveDec_replies (s : State) :
    (deriveDec s).replies = s.replies := rfl

@[simp] theorem cryptBlock_tables (rk : Vector Word 68) (s : State) :
    (cryptBlock rk s).tables = s.tables := rfl

@[simp] theorem cryptBlock_ksize (rk : Vector Word 68) (s : State) :
    (cryptBlock rk s).ksize = s.ksize := rfl

@[simp] theorem cryptBlock_mkValid (rk : Vector Word 68) (s : State) :
    (cryptBlock rk s).mkValid = s.mkValid := rfl

@[simp] theorem cryptBlock_masterKey (rk : Vector Word 68) (s : State) :
    (cryptBlock rk s).masterKey = s.masterKey := rfl

@[simp] theorem cryptBlock_encValid (rk : Vector Word 68) (s : State) :
    (cryptBlock rk s).encValid = s.encValid := rfl

@[simp] theorem cryptBlock_erk (rk : Vector Word 68) (s : State) :
    (cryptBlock rk s).erk = s.erk := rfl

@[simp] theorem cryptBlock_decValid (rk : Vector Word 68) (s : State) :
    (cryptBlock rk s).decValid = s.decValid := rfl

@[simp] theorem cryptBlock_drk (rk : Vector Word 68) (s : State) :
    (cryptBlock rk s).drk = s.drk := rfl

@[simp] theorem cryptBlock_err (rk : Vector Word 68) (s : State) :
    (cryptBlock rk s).err = s.err := rfl

@[simp] theorem cryptBlock_result (rk : Vector Word 68) (s : State) :
    (cryptBlock rk s).result = s.result := rfl

@[simp] theorem cryptBlock_din (rk : Vector Word 68) (s : State) :
    (cryptBlock rk s).din = s.din := rfl

@[simp] theorem cryptBlock_dout (rk : Vector Word 68) (s : State) :
    (cryptBlock rk s).dout = Block.ofBytes (crypt s.tables s.din.bytes rk s.ksize.rounds).out := rfl

@[simp] theorem cryptBlock_keybuf (rk : Vector Word 68) (s : State) :
    (cryptBlock rk s).keybuf = s.keybuf := rfl

@[simp] theorem cryptBlock_work (rk : Vector Word 68) (s : State) :
    (cryptBlock rk s).work = { s.work with
        t := (crypt s.tables s.din.bytes rk s.ksize.rounds).t
        j := BitVec.ofNat 7 (crypt s.tables s.din.bytes rk s.ksize.rounds).j } := rfl

@[simp] theorem cryptBlock_cfg (rk : Vector Word 68) (s : State) :
    (cryptBlock rk s).cfg = s.cfg := rfl

@[simp] theorem cryptBlock_fresh (rk : Vector Word 68) (s : State) :
    (cryptBlock rk s).fresh = s.fresh := rfl

@[simp] theorem cryptBlock_queue (rk : Vector Word 68) (s : State) :
    (cryptBlock rk s).queue = s.queue := rfl

@[simp] theorem cryptBlock_replies (rk : Vector Word 68) (s : State) :
    (cryptBlock rk s).replies = s.replies := rfl

@[simp] theorem readAccess_tables (slot : BitVec 5) (s : State) :
    (readAccess slot s).tables = s.tables := rfl

@[simp] theorem readAccess_ksize (slot : BitVec 5) (s : State) :
    (readAccess slot s).ksize = s.ksize := rfl

@[simp] theorem readAccess_mkValid (slot : BitVec 5) (s : State) :
    (readAccess slot s).mkValid = s.mkValid := rfl

@[simp] theorem readAccess_masterKey (slot : BitVec 5) (s : State) :
    (readAccess slot s).masterKey = s.masterKey := rfl

@[simp] theorem readAccess_encValid (slot : BitVec 5) (s : State) :
    (readAccess slot s).encValid = s.encValid := rfl

@[simp] theorem readAccess_erk (slot : BitVec 5) (s : State) :
    (readAccess slot s).erk = s.erk := rfl

@[simp] theorem readAccess_decValid (slot : BitVec 5) (s : State) :
    (readAccess slot s).decValid = s.decValid := rfl

@[simp] theorem readAccess_drk (slot : BitVec 5) (s : State) :
    (readAccess slot s).drk = s.drk := rfl

@[simp] theorem readAccess_err (slot : BitVec 5) (s : State) :
    (readAccess slot s).err = s.err := rfl

@[simp] theorem readAccess_result (slot : BitVec 5) (s : State) :
    (readAccess slot s).result = s.result := rfl

@[simp] theorem readAccess_din (slot : BitVec 5) (s : State) :
    (readAccess slot s).din = s.din := rfl

@[simp] theorem readAccess_dout (slot : BitVec 5) (s : State) :
    (readAccess slot s).dout = s.dout := rfl

@[simp] theorem readAccess_keybuf (slot : BitVec 5) (s : State) :
    (readAccess slot s).keybuf = s.keybuf := rfl

@[simp] theorem readAccess_work (slot : BitVec 5) (s : State) :
    (readAccess slot s).work = s.work := rfl

@[simp] theorem readAccess_cfg (slot : BitVec 5) (s : State) :
    (readAccess slot s).cfg = s.cfg := rfl

@[simp] theorem readAccess_fresh (slot : BitVec 5) (s : State) :
    (readAccess slot s).fresh = s.fresh := rfl

@[simp] theorem readAccess_queue (slot : BitVec 5) (s : State) :
    (readAccess slot s).queue = s.queue := rfl

@[simp] theorem readAccess_replies (slot : BitVec 5) (s : State) :
    (readAccess slot s).replies = s.replies ++ [hostRead slot s] := rfl

@[simp] theorem resetEvent_tables (s : State) :
    (resetEvent s).tables = builtTables s.cfg := rfl

@[simp] theorem resetEvent_ksize (s : State) :
    (resetEvent s).ksize = State.reset.ksize := rfl

@[simp] theorem resetEvent_mkValid (s : State) :
    (resetEvent s).mkValid = State.reset.mkValid := rfl

@[simp] theorem resetEvent_masterKey (s : State) :
    (resetEvent s).masterKey = State.reset.masterKey := rfl

@[simp] theorem resetEvent_encValid (s : State) :
    (resetEvent s).encValid = State.reset.encValid := rfl

@[simp] theorem resetEvent_erk (s : State) :
    (resetEvent s).erk = State.reset.erk := rfl

@[simp] theorem resetEvent_decValid (s : State) :
    (resetEvent s).decValid = State.reset.decValid := rfl

@[simp] theorem resetEvent_drk (s : State) :
    (resetEvent s).drk = State.reset.drk := rfl

@[simp] theorem resetEvent_err (s : State) :
    (resetEvent s).err = State.reset.err := rfl

@[simp] theorem resetEvent_result (s : State) :
    (resetEvent s).result = State.reset.result := rfl

@[simp] theorem resetEvent_din (s : State) :
    (resetEvent s).din = State.reset.din := rfl

@[simp] theorem resetEvent_dout (s : State) :
    (resetEvent s).dout = State.reset.dout := rfl

@[simp] theorem resetEvent_keybuf (s : State) :
    (resetEvent s).keybuf = State.reset.keybuf := rfl

@[simp] theorem resetEvent_work (s : State) :
    (resetEvent s).work = State.reset.work := rfl

@[simp] theorem resetEvent_cfg (s : State) :
    (resetEvent s).cfg = s.cfg := rfl

@[simp] theorem resetEvent_fresh (s : State) :
    (resetEvent s).fresh = s.fresh := rfl

@[simp] theorem resetEvent_queue (s : State) :
    (resetEvent s).queue = s.queue := rfl

@[simp] theorem resetEvent_replies (s : State) :
    (resetEvent s).replies = s.replies := rfl

@[simp] theorem ensureEnc_tables (s : State) : (ensureEnc s).tables = s.tables := by unfold ensureEnc; split <;> rfl

@[simp] theorem ensureEnc_ksize (s : State) : (ensureEnc s).ksize = s.ksize := by unfold ensureEnc; split <;> rfl

@[simp] theorem ensureEnc_mkValid (s : State) : (ensureEnc s).mkValid = s.mkValid := by unfold ensureEnc; split <;> rfl

@[simp] theorem ensureEnc_masterKey (s : State) : (ensureEnc s).masterKey = s.masterKey := by unfold ensureEnc; split <;> rfl

@[simp] theorem ensureEnc_err (s : State) : (ensureEnc s).err = s.err := by unfold ensureEnc; split <;> rfl

@[simp] theorem ensureEnc_result (s : State) : (ensureEnc s).result = s.result := by unfold ensureEnc; split <;> rfl

@[simp] theorem ensureEnc_din (s : State) : (ensureEnc s).din = s.din := by unfold ensureEnc; split <;> rfl

@[simp] theorem ensureEnc_dout (s : State) : (ensureEnc s).dout = s.dout := by unfold ensureEnc; split <;> rfl

@[simp] theorem ensureEnc_keybuf (s : State) : (ensureEnc s).keybuf = s.keybuf := by unfold ensureEnc; split <;> rfl

@[simp] theorem ensureEnc_cfg (s : State) : (ensureEnc s).cfg = s.cfg := by unfold ensureEnc; split <;> rfl

@[simp] theorem ensureEnc_queue (s : State) : (ensureEnc s).queue = s.queue := by unfold ensureEnc; split <;> rfl

@[simp] theorem ensureEnc_replies (s : State) : (ensureEnc s).replies = s.replies := by unfold ensureEnc; split <;> rfl

@[simp] theorem decSetup_tables (s : State) : (decSetup s).tables = s.tables := ensureEnc_tables s

@[simp] theorem decSetup_ksize (s : State) : (decSetup s).ksize = s.ksize := ensureEnc_ksize s

@[simp] theorem decSetup_mkValid (s : State) : (decSetup s).mkValid = s.mkValid := ensureEnc_mkValid s

@[simp] theorem decSetup_masterKey (s : State) : (decSetup s).masterKey = s.masterKey := ensureEnc_masterKey s

@[simp] theorem decSetup_err (s : State) : (decSetup s).err = s.err := ensureEnc_err s

@[simp] theorem decSetup_result (s : State) : (decSetup s).result = s.result := ensureEnc_result s

@[simp] theorem decSetup_din (s : State) : (decSetup s).din = s.din := ensureEnc_din s

@[simp] theorem decSetup_dout (s : State) : (decSetup s).dout = s.dout := ensureEnc_dout s

@[simp] theorem decSetup_keybuf (s : State) : (decSetup s).keybuf = s.keybuf := ensureEnc_keybuf s

@[simp] theorem decSetup_cfg (s : State) : (decSetup s).cfg = s.cfg := ensureEnc_cfg s

@[simp] theorem decSetup_queue (s : State) : (decSetup s).queue = s.queue := ensureEnc_queue s

@[simp] theorem decSetup_replies (s : State) : (decSetup s).replies = s.replies := ensureEnc_replies s

@[simp] theorem ensureDec_tables (s : State) : (ensureDec s).tables = s.tables := by
  unfold ensureDec; split
  · rfl
  · exact decSetup_tables s

@[simp] theorem ensureDec_ksize (s : State) : (ensureDec s).ksize = s.ksize := by
  unfold ensureDec; split
  · rfl
  · exact decSetup_ksize s

@[simp] theorem ensureDec_mkValid (s : State) : (ensureDec s).mkValid = s.mkValid := by
  unfold ensureDec; split
  · rfl
  · exact decSetup_mkValid s

@[simp] theorem ensureDec_masterKey (s : State) : (ensureDec s).masterKey = s.masterKey := by
  unfold ensureDec; split
  · rfl
  · exact decSetup_masterKey s

@[simp] theorem ensureDec_err (s : State) : (ensureDec s).err = s.err := by
  unfold ensureDec; split
  · rfl
  · exact decSetup_err s

@[simp] theorem ensureDec_result (s : State) : (ensureDec s).result = s.result := by
  unfold ensureDec; split
  · rfl
  · exact decSetup_result s

@[simp] theorem ensureDec_din (s : State) : (ensureDec s).din = s.din := by
  unfold ensureDec; split
  · rfl
  · exact decSetup_din s

@[simp] theorem ensureDec_dout (s : State) : (ensureDec s).dout = s.dout := by
  unfold ensureDec; split
  · rfl
  · exact decSetup_dout s

@[simp] theorem ensureDec_keybuf (s : State) : (ensureDec s).keybuf = s.keybuf := by
  unfold ensureDec; split
  · rfl
  · exact decSetup_keybuf s

@[simp] theorem ensureDec_cfg (s : State) : (ensureDec s).cfg = s.cfg := by
  unfold ensureDec; split
  · rfl
  · exact decSetup_cfg s

@[simp] theorem ensureDec_queue (s : State) : (ensureDec s).queue = s.queue := by
  unfold ensureDec; split
  · rfl
  · exact decSetup_queue s

@[simp] theorem ensureDec_replies (s : State) : (ensureDec s).replies = s.replies := by
  unfold ensureDec; split
  · rfl
  · exact decSetup_replies s

@[simp] theorem ensureEnc_encValid (s : State) : (ensureEnc s).encValid = true := by
  unfold ensureEnc; split
  · assumption
  · rfl

@[simp] theorem decSetup_encValid (s : State) : (decSetup s).encValid = true := ensureEnc_encValid s

@[simp] theorem decSetup_decValid (s : State) : (decSetup s).decValid = true := rfl

@[simp] theorem decSetup_erk (s : State) : (decSetup s).erk = (ensureEnc s).erk := rfl

@[simp] theorem ensureDec_decValid (s : State) : (ensureDec s).decValid = true := by
  unfold ensureDec; split
  · assumption
  · rfl

theorem ensureEnc_of_valid {s : State} (h : s.encValid = true) : ensureEnc s = s := by
  simp [ensureEnc, h]

theorem ensureEnc_of_absent {s : State} (h : s.encValid = false) : ensureEnc s = encSetup s := by
  simp [ensureEnc, h]

theorem ensureDec_of_valid {s : State} (h : s.decValid = true) : ensureDec s = s := by
  simp [ensureDec, h]

theorem ensureDec_of_absent {s : State} (h : s.decValid = false) : ensureDec s = decSetup s := by
  simp [ensureDec, h]

theorem failedSize_of_keep {s : State} (h : s.cfg.ksizeFailPolicy = .keep) : failedSize s = s := by
  simp [failedSize, h]

theorem failedSize_of_clear {s : State} (h : s.cfg.ksizeFailPolicy = .clear) :
    failedSize s = setContextSize .unset s := by
  simp [failedSize, h]

end Sys2Proof.Machine
end

