-- ==== Sys2Proof/Laws/Ops.lean ====
section
/-! SUPPORT. What each shared operation can answer, said once: every one ends in a next state, and
these lemmas say which. -/

namespace Sys2Proof.Machine

theorem raise_next {e : ErrKind} {s t : State} (h : raise e s = .next t) :
    t = { s with err := e.code } := by
  injection h with h; exact h.symm

theorem succeed_next {s t : State} (h : succeed s = .next t) : t = { s with err := 0 } := by
  injection h with h; exact h.symm

/-- With the default parameters a reset leaves the printed tables. -/
theorem builtTables_default : builtTables Config.default = romTables :=
  if_pos ⟨rfl, rfl, rfl⟩

/-- A reset leaves the printed tables or the table build's. -/
theorem builtTables_cases (cfg : Config) :
    (cfg.gen = gen ∧ cfg.affA = affA ∧ cfg.affB = affB ∧ builtTables cfg = romTables) ∨
    builtTables cfg = tableBuild cfg := by
  unfold builtTables
  split
  · next h => exact .inl ⟨h.1, h.2.1, h.2.2, rfl⟩
  · exact .inr rfl

/-- `State.reset` is the reset state for the default parameters. -/
theorem resetFor_default : State.resetFor Config.default = State.reset :=
  congrArg (fun tb => { State.reset with tables := tb }) builtTables_default

/-- A key size is set or it is not. -/
theorem KeySize.ofSize_cases (size : Nat) :
    (size = 128 ∧ KeySize.ofSize size = some .k128) ∨
    (size = 192 ∧ KeySize.ofSize size = some .k192) ∨
    (size = 256 ∧ KeySize.ofSize size = some .k256) ∨
    (size ≠ 128 ∧ size ≠ 192 ∧ size ≠ 256 ∧ KeySize.ofSize size = none) := by
  unfold KeySize.ofSize
  split
  · simp_all
  · split
    · simp_all
    · split <;> simp_all

/-- The failure effect is nothing, or the whole context unset. -/
theorem failedSize_cases (s : State) :
    (s.cfg.ksizeFailPolicy = .keep ∧ failedSize s = s) ∨
    (s.cfg.ksizeFailPolicy = .clear ∧ failedSize s = setContextSize .unset s) := by
  cases h : s.cfg.ksizeFailPolicy
  · exact .inl ⟨rfl, failedSize_of_keep h⟩
  · exact .inr ⟨rfl, failedSize_of_clear h⟩

/-- Making sure of the encryption schedule does nothing or runs the setup. -/
theorem ensureEnc_cases (s : State) :
    (s.encValid = true ∧ ensureEnc s = s) ∨ (s.encValid = false ∧ ensureEnc s = encSetup s) := by
  cases h : s.encValid
  · exact .inr ⟨rfl, ensureEnc_of_absent h⟩
  · exact .inl ⟨rfl, ensureEnc_of_valid h⟩

/-- Making sure of the decryption schedule does nothing or runs the setup. -/
theorem ensureDec_cases (s : State) :
    (s.decValid = true ∧ ensureDec s = s) ∨ (s.decValid = false ∧ ensureDec s = decSetup s) := by
  cases h : s.decValid
  · exact .inr ⟨rfl, ensureDec_of_absent h⟩
  · exact .inl ⟨rfl, ensureDec_of_valid h⟩

/-- Executing a word runs its command, or raises `IllegalCommand`. -/
theorem execute_cases (c : Word) (s : State) :
    (∃ i, decodeWith s.cfg.host.opcodes c = .ok i ∧ execute c s = exec i s) ∨
    (∃ e, decodeWith s.cfg.host.opcodes c = .error e ∧ execute c s = raise .illegalCommand s) := by
  unfold execute
  cases h : decodeWith s.cfg.host.opcodes c with
  | ok i => exact .inl ⟨i, rfl, rfl⟩
  | error e => exact .inr ⟨e, rfl, rfl⟩

/-- On a part with the opcode map of rule R48 the decoder is `decode`. -/
theorem decodeWith_of_default {o : Opcodes} (h : o = Opcodes.default) : decodeWith o = decode :=
  funext fun _ => h ▸ rfl

/-- The `STATUS` word of rule R28: `KS`, `DEC`, `ENC`, `KEY`, `ERR` below 25 zero bits. -/
theorem statusWord_of_default {s : State} (h : s.cfg.host.status = StatusLayout.default) :
    statusWord s = (0 : BitVec 25) ++ s.ksize.code ++ BitVec.ofBool s.decValid
      ++ BitVec.ofBool s.encValid ++ BitVec.ofBool s.mkValid ++ s.err := by
  unfold statusWord statusWordIn
  rw [h]
  generalize s.ksize.code = k, s.err = e, s.mkValid = a, s.encValid = b, s.decValid = c
  revert k e a b c
  decide

/-- `CMD` comes first in the window, whatever the offsets. -/
@[simp] theorem windowReg_cmd (o : Offsets) : windowReg o o.cmd = .cmd := if_pos rfl

/-- A write to `CMD` executes the word. -/
@[simp] theorem hostWrite_cmd (v : Word) (s : State) :
    hostWrite s.cfg.host.offsets.cmd v s = execute v s := by
  simp [hostWrite]

/-- A read of `CMD` gives 0. -/
@[simp] theorem hostRead_cmd (s : State) : hostRead s.cfg.host.offsets.cmd s = 0 := by
  simp [hostRead]

/-- The slots of `n` registers in a row are those less than `n` beyond the first. -/
theorem mem_slotsFrom {first slot : BitVec 5} {n : Nat} (hn : n ≤ 32) :
    slot ∈ slotsFrom first n ↔ (slot - first).toNat < n := by
  simp only [slotsFrom, List.mem_map, List.mem_range]
  constructor
  · rintro ⟨k, hk, rfl⟩
    have h : first + BitVec.ofNat 5 k - first = BitVec.ofNat 5 k := by
      rw [BitVec.add_comm, BitVec.add_sub_cancel]
    rw [h, BitVec.toNat_ofNat]
    omega
  · intro h
    refine ⟨_, h, ?_⟩
    rw [BitVec.ofNat_toNat, BitVec.setWidth_eq, BitVec.add_comm, BitVec.sub_add_cancel]

/-- A slot that holds no register is reserved. -/
theorem windowReg_reserved {o : Offsets} {slot : BitVec 5} (h : slot ∉ registerSlots o) :
    windowReg o slot = .reserved := by
  simp only [registerSlots, List.mem_append, List.mem_cons, List.not_mem_nil, or_false,
    mem_slotsFrom (n := 4) (by decide), mem_slotsFrom (n := 8) (by decide), not_or] at h
  obtain ⟨⟨⟨⟨hc, hs, hr⟩, hi⟩, ho⟩, hk⟩ := h
  simp only [windowReg, hc, hs, hr, hi, ho, hk, if_false]

/-- Where no two registers fall together every register stands at its slots. -/
theorem windowReg_registers {o : Offsets} (h : (registerSlots o).Nodup) :
    windowReg o o.cmd = .cmd ∧ windowReg o o.status = .status ∧ windowReg o o.result = .result ∧
    (∀ slot, (slot - o.din).toNat < 4 → windowReg o slot = .din (slot - o.din).toNat) ∧
    (∀ slot, (slot - o.dout).toNat < 4 → windowReg o slot = .dout (slot - o.dout).toNat) ∧
    (∀ slot, (slot - o.keybuf).toNat < 8 → windowReg o slot = .keybuf (slot - o.keybuf).toNat) := by
  simp only [registerSlots, List.nodup_append, List.mem_append, List.mem_cons, List.not_mem_nil,
    or_false, mem_slotsFrom (n := 4) (by decide), mem_slotsFrom (n := 8) (by decide)] at h
  obtain ⟨⟨⟨h3, -, hi⟩, -, ho⟩, -, hk⟩ := h
  have hsc : o.status ≠ o.cmd := by simp at h3; exact fun e => h3.1.1 e.symm
  have hrc : o.result ≠ o.cmd := by simp at h3; exact fun e => h3.1.2 e.symm
  have hrs : o.result ≠ o.status := by simp at h3; exact fun e => h3.2 e.symm
  refine ⟨if_pos rfl, ?_, ?_, fun slot hs => ?_, fun slot hs => ?_, fun slot hs => ?_⟩
  · simp only [windowReg, hsc, if_true, if_false]
  · simp only [windowReg, hrc, hrs, if_true, if_false]
  · have h1 : slot ≠ o.cmd := (hi _ (.inl rfl) slot hs).symm
    have h2 : slot ≠ o.status := (hi _ (.inr (.inl rfl)) slot hs).symm
    have h4 : slot ≠ o.result := (hi _ (.inr (.inr rfl)) slot hs).symm
    simp only [windowReg, h1, h2, h4, hs, if_true, if_false]
  · have h1 : slot ≠ o.cmd := (ho _ (.inl (.inl rfl)) slot hs).symm
    have h2 : slot ≠ o.status := (ho _ (.inl (.inr (.inl rfl))) slot hs).symm
    have h4 : slot ≠ o.result := (ho _ (.inl (.inr (.inr rfl))) slot hs).symm
    have h5 : ¬ (slot - o.din).toNat < 4 := fun e => ho _ (.inr e) slot hs rfl
    simp only [windowReg, h1, h2, h4, h5, hs, if_true, if_false]
  · have h1 : slot ≠ o.cmd := (hk _ (.inl (.inl (.inl rfl))) slot hs).symm
    have h2 : slot ≠ o.status := (hk _ (.inl (.inl (.inr (.inl rfl)))) slot hs).symm
    have h4 : slot ≠ o.result := (hk _ (.inl (.inl (.inr (.inr rfl)))) slot hs).symm
    have h5 : ¬ (slot - o.din).toNat < 4 := fun e => hk _ (.inl (.inr e)) slot hs rfl
    have h6 : ¬ (slot - o.dout).toNat < 4 := fun e => hk _ (.inr e) slot hs rfl
    simp only [windowReg, h1, h2, h4, h5, h6, hs, if_true, if_false]

/-- The window of rule R37, offset by offset. -/
theorem windowReg_default :
    (List.range 32).map (fun n => windowReg Offsets.default (BitVec.ofNat 5 n)) =
      [.cmd, .status, .result, .reserved, .din 0, .din 1, .din 2, .din 3,
       .dout 0, .dout 1, .dout 2, .dout 3, .reserved, .reserved, .reserved, .reserved,
       .keybuf 0, .keybuf 1, .keybuf 2, .keybuf 3, .keybuf 4, .keybuf 5, .keybuf 6, .keybuf 7,
       .reserved, .reserved, .reserved, .reserved, .reserved, .reserved, .reserved, .reserved] := by
  decide

/-- A host write executes a word, stores one, or does nothing. -/
theorem hostWrite_cases (slot : BitVec 5) (v : Word) (s : State) :
    (windowReg s.cfg.host.offsets slot = .cmd ∧ hostWrite slot v s = execute v s) ∨
    (∃ k, windowReg s.cfg.host.offsets slot = .din k ∧
      hostWrite slot v s = .next { s with din := s.din.setWord k v }) ∨
    (∃ k, windowReg s.cfg.host.offsets slot = .keybuf k ∧
      hostWrite slot v s = .next { s with keybuf := s.keybuf.setIfInBounds k v }) ∨
    hostWrite slot v s = .next s := by
  unfold hostWrite
  cases h : windowReg s.cfg.host.offsets slot <;> simp

/-- A step does nothing, or performs the oldest access. -/
theorem step_cases (s : State) :
    (s.queue = [] ∧ step s = .next s) ∨
    (∃ slot v rest, s.queue = .write slot v :: rest ∧
      step s = hostWrite slot v { s with queue := rest }) ∨
    (∃ slot rest, s.queue = .read slot :: rest ∧
      step s = .next (readAccess slot { s with queue := rest })) ∨
    (∃ rest, s.queue = .reset :: rest ∧ step s = .next (resetEvent { s with queue := rest })) := by
  unfold step
  match h : s.queue with
  | [] => exact .inl ⟨rfl, rfl⟩
  | .write slot v :: rest => exact .inr (.inl ⟨slot, v, rest, rfl, rfl⟩)
  | .read slot :: rest => exact .inr (.inr (.inl ⟨slot, rest, rfl, rfl⟩))
  | .reset :: rest => exact .inr (.inr (.inr ⟨rest, rfl, rfl⟩))

end Sys2Proof.Machine
end

