-- ==== Sys2Proof/Laws/Exec.lean ====
section
/-! SUPPORT. What each command can do, said once per command: either one of its errors, or its effect. -/

namespace Sys2Proof.Machine

theorem execSetKey_cases (len : Nat) (s : State) :
    ((s.ksize = .unset ∨ len * 8 < s.ksize.bits) ∧ execSetKey len s = raise .invalidKey s) ∨
    (s.ksize ≠ .unset ∧ s.ksize.bits ≤ len * 8 ∧
      execSetKey len s = succeed { s with
        masterKey := keyBytes s.keybuf len, mkValid := true, encValid := false, decValid := false }) := by
  unfold execSetKey
  by_cases h : s.ksize = .unset
  · simp [h]
  · by_cases hb : len * 8 < s.ksize.bits
    · simp [h, hb]
    · simp [h, hb, Nat.le_of_not_lt hb]

theorem execSetupEnc_cases (s : State) :
    ((s.ksize = .unset ∨ s.mkValid = false) ∧ execSetupEnc s = raise .invalidKey s) ∨
    (s.ksize ≠ .unset ∧ s.mkValid = true ∧ execSetupEnc s = succeed (encSetup s)) := by
  unfold execSetupEnc
  by_cases h : s.ksize = .unset ∨ s.mkValid = false
  · simp [h]
  · have h' : s.ksize ≠ .unset ∧ s.mkValid = true := by simpa using h
    simp [h'.1, h'.2]

theorem execSetupDec_cases (s : State) :
    ((s.ksize = .unset ∨ (s.encValid = false ∧ s.mkValid = false)) ∧
      execSetupDec s = raise .invalidKey s) ∨
    (s.ksize ≠ .unset ∧ (s.encValid = true ∨ s.mkValid = true) ∧
      execSetupDec s = succeed (decSetup s)) := by
  unfold execSetupDec
  by_cases h : s.ksize = .unset
  · simp [h]
  · cases he : s.encValid <;> cases hk : s.mkValid <;> simp [h]

theorem execEncrypt_cases (s : State) :
    ((s.ksize = .unset ∨ (s.encValid = false ∧ s.mkValid = false)) ∧
      execEncrypt s = raise .invalidKey s) ∨
    (s.ksize ≠ .unset ∧ (s.encValid = true ∨ s.mkValid = true) ∧
      execEncrypt s = succeed (cryptBlock (ensureEnc s).erk (ensureEnc s))) := by
  unfold execEncrypt
  by_cases h : s.ksize = .unset
  · simp [h]
  · cases he : s.encValid <;> cases hk : s.mkValid <;> simp [h]

theorem execDecrypt_cases (s : State) :
    ((s.ksize = .unset ∨ (s.decValid = false ∧ s.encValid = false ∧ s.mkValid = false)) ∧
      execDecrypt s = raise .invalidKey s) ∨
    (s.ksize ≠ .unset ∧ (s.decValid = true ∨ s.encValid = true ∨ s.mkValid = true) ∧
      execDecrypt s = succeed (cryptBlock (ensureDec s).drk (ensureDec s))) := by
  unfold execDecrypt
  by_cases h : s.ksize = .unset
  · simp [h]
  · cases hd : s.decValid <;> cases he : s.encValid <;> cases hk : s.mkValid <;> simp [h]

theorem execRkRead_cases (sched : Sched) (idx : Nat) (s : State) :
    (schedValid s sched = false ∧ execRkRead sched idx s = raise .invalidKey s) ∨
    (schedValid s sched = true ∧ s.ksize.rkWords ≤ idx ∧
      execRkRead sched idx s = raise .outOfRange s) ∨
    (schedValid s sched = true ∧ idx < s.ksize.rkWords ∧
      execRkRead sched idx s = succeed { s with result := rkWord (schedWords s sched) idx }) := by
  unfold execRkRead
  cases h : schedValid s sched
  · simp
  · by_cases hi : s.ksize.rkWords ≤ idx
    · simp [hi]
    · simp [hi, Nat.lt_of_not_le hi]

end Sys2Proof.Machine
end

