-- ==== Sys2Proof/Laws/PerInstr.lean ====
section
/-! SUPPORT. Statements made per instruction, one lemma per constructor of `Instr`. -/

namespace Sys2Proof.Laws

/-- The head of an encoded command: its opcode in `OP` and zero in `RSV`, whatever the opcode numbers
(`spec/30_encoding.md` rule R46). -/
def EncodedHead.Statement (i : Instr) : Prop :=
  ∀ o : Opcodes, opField (encodeWith o i) = i.opcode o ∧ rsvField (encodeWith o i) = 0

theorem commandWord_op (op : BitVec 8) (arg : BitVec 16) : opField (commandWord op arg) = op := by
  apply BitVec.eq_of_getLsbD_eq
  intro k hk
  simp only [opField, commandWord, BitVec.getLsbD_extractLsb', BitVec.getLsbD_append]
  have h1 : ¬ (24 + k < 16) := by omega
  have h2 : ¬ (24 + k - 16 < 8) := by omega
  have h3 : 24 + k - 16 - 8 = k := by omega
  simp [hk, h1, h2, h3]

theorem commandWord_rsv (op : BitVec 8) (arg : BitVec 16) : rsvField (commandWord op arg) = 0 := by
  apply BitVec.eq_of_getLsbD_eq
  intro k hk
  simp only [rsvField, commandWord, BitVec.getLsbD_extractLsb', BitVec.getLsbD_append]
  have h1 : ¬ (16 + k < 16) := by omega
  simp [hk, h1]

theorem EncodedHead.setKeySize (size : Nat) : EncodedHead.Statement (.setKeySize size) :=
  fun _ => ⟨commandWord_op _ _, commandWord_rsv _ _⟩

theorem EncodedHead.getKeySize : EncodedHead.Statement .getKeySize :=
  fun _ => ⟨commandWord_op _ _, commandWord_rsv _ _⟩

theorem EncodedHead.setKey (len : Nat) : EncodedHead.Statement (.setKey len) :=
  fun _ => ⟨commandWord_op _ _, commandWord_rsv _ _⟩

theorem EncodedHead.setupEnc : EncodedHead.Statement .setupEnc :=
  fun _ => ⟨commandWord_op _ _, commandWord_rsv _ _⟩

theorem EncodedHead.setupDec : EncodedHead.Statement .setupDec :=
  fun _ => ⟨commandWord_op _ _, commandWord_rsv _ _⟩

theorem EncodedHead.encrypt : EncodedHead.Statement .encrypt :=
  fun _ => ⟨commandWord_op _ _, commandWord_rsv _ _⟩

theorem EncodedHead.decrypt : EncodedHead.Statement .decrypt :=
  fun _ => ⟨commandWord_op _ _, commandWord_rsv _ _⟩

theorem EncodedHead.tblRead (sel : TableSel) (idx : Byte) :
    EncodedHead.Statement (.tblRead sel idx) :=
  fun _ => ⟨commandWord_op _ _, commandWord_rsv _ _⟩

theorem EncodedHead.rkRead (sched : Sched) (idx : Nat) : EncodedHead.Statement (.rkRead sched idx) :=
  fun _ => ⟨commandWord_op _ _, commandWord_rsv _ _⟩

end Sys2Proof.Laws
end

