-- ==== Sys2Proof/Laws/Words.lean ====
section
/-! SUPPORT. Reading tabulated arrays, schedules and groups back. -/

namespace Sys2Proof

@[simp] theorem getElem_tabulate {α : Type} (n : Nat) (f : Nat → α) (i : Nat) (h : i < n) :
    (tabulate n f)[i] = f i := by
  simp [tabulate]

theorem getElem?_tabulate {α : Type} (n : Nat) (f : Nat → α) (i : Nat) :
    (tabulate n f)[i]? = if i < n then some (f i) else none := by
  split <;> simp_all [tabulate]

@[ext] theorem Block.ext_words {x y : Block} (h0 : x.w0 = y.w0) (h1 : x.w1 = y.w1)
    (h2 : x.w2 = y.w2) (h3 : x.w3 = y.w3) : x = y := by
  cases x; cases y; simp_all

end Sys2Proof

namespace Sys2Proof.Machine

@[simp] theorem look_tabulate {α : Type} (f : Nat → α) (i : Byte) :
    look (tabulate 256 f) i = f i.toNat := by
  simp [look]

/-- A schedule read inside the storage is the stored word. -/
theorem rkWord_eq (rk : Vector Word 68) (i : Nat) (h : i < 68) : rkWord rk i = rk[i] := by
  simp [rkWord, h]

@[simp] theorem rkWord_tabulate (f : Nat → Word) (i : Nat) (h : i < 68) :
    rkWord (tabulate 68 f) i = f i := by
  simp [rkWord, h]

/-- What one word of the storage holds after the encryption key setup. -/
theorem rkWord_encKeys (w : Vector Block 4) (k : KeySize) (old : Vector Word 68) (i : Nat)
    (h : i < 68) :
    rkWord (encKeys w k old) i =
      if i < k.rkWords then (encGroup w (i / 4)).word (i % 4) else rkWord old i :=
  rkWord_tabulate _ i h

/-- What one word of the storage holds after the decryption key setup. -/
theorem rkWord_decKeys (erk : Vector Word 68) (k : KeySize) (old : Vector Word 68) (i : Nat)
    (h : i < 68) :
    rkWord (decKeys erk k old) i =
      if i < k.rkWords then
        (groupAt (decGroups (scheduleGroups erk (k.rounds + 1))) (i / 4)).word (i % 4)
      else rkWord old i :=
  rkWord_tabulate _ i h

theorem rkGroup_word (rk : Vector Word 68) (j i : Nat) (h : i < 4) :
    (rkGroup rk j).word i = rkWord rk (j + i) := by
  match i, h with
  | 0, _ => rfl
  | 1, _ => rfl
  | 2, _ => rfl
  | 3, _ => rfl

/-- Every schedule fits its storage. -/
theorem rkWords_le (k : KeySize) : k.rkWords ≤ 68 := by
  cases k <;> decide

end Sys2Proof.Machine
end

