-- ==== Sys2Proof/Tests/Slice0.lean ====
section
/-! SUPPORT. Tests of the model against values printed in `spec/`, the refusals of the well-formedness
check, and for every statement with hypotheses a concrete case that meets them (`witness_<statement>`).
Sources: `spec/95_test_vectors.md` sections 1.2 and 2.1 to 2.6, unless a test names another. -/

namespace Sys2Proof.Tests

open Sys2Proof Sys2Proof.Machine

set_option maxRecDepth 8000

/-! ## Small states and how a test looks at an answer -/

/-- One fact about the next state, if there is one. -/
def after {α : Type} (o : Result) (f : State → α) : Option α :=
  match o with
  | .next t => some (f t)
  | .fault _ => none
  | .refused _ => none

/-- The bytes `00 01 .. 1F` as key buffer words (the `RFC` keys of section 2.3). -/
def rfcKeybuf : Vector Word 8 :=
  #v[0x00010203, 0x04050607, 0x08090A0B, 0x0C0D0E0F, 0x10111213, 0x14151617, 0x18191A1B, 0x1C1D1E1F]

/-- A context over the reset state with the first `n` bytes of the `RFC` keys in `MK`. -/
def ctx (k : KeySize) (n : Nat) (mk enc dec : Bool) : State :=
  { State.reset with
    ksize := k, mkValid := mk, encValid := enc, decValid := dec, keybuf := rfcKeybuf
    masterKey := tabulate 32 fun i => if i < n then BitVec.ofNat 8 i else 0 }

/-- The five context states `U`, `S`, `K`, `E`, `D` of section 2.6 with `KSIZE = 128`; the schedules'
words play no part in `STATUS`. -/
def five : List State :=
  [ctx .unset 0 false false false, ctx .k128 0 false false false, ctx .k128 16 true false false,
   ctx .k128 16 true true false, ctx .k128 16 true true true]

/-- `STATUS` after a command from each of the five states. -/
def statuses (i : Instr) : List (Option Word) := five.map fun s => after (exec i s) statusWord

/-- The state `K` for the `RFC` key of a size. -/
def keyed (k : KeySize) : State := ctx k (k.bits / 8) true false false

/-- The reset state with one pending access. -/
def pending (a : HostAccess) : State := { State.reset with queue := [a] }

/-- The default parameters with `KSIZE_FAIL_POLICY = clear`. -/
def withClear : Config := { Config.default with ksizeFailPolicy := .clear }

/-- The default parameters with `KS_ORDER = (B, A, B)`. -/
def withBab : Config := { Config.default with ksOrder := .bab }

/-- Another host interface, with no two registers, opcodes or `STATUS` fields together: every opcode is
0x10 more, `CMD` is the last slot and `KEYBUF` begins at slot 0, and the `STATUS` fields stand from bit
31 down. -/
def otherHost : HostInterface where
  offsets := ⟨31, 30, 29, 8, 12, 0⟩
  opcodes := ⟨0x11, 0x12, 0x13, 0x14, 0x15, 0x16, 0x17, 0x18, 0x19⟩
  status := ⟨30, 29, 28, 27, 25⟩

/-- A state on a part with that host interface. -/
def withOtherHost (s : State) : State :=
  { s with cfg := { s.cfg with host := otherHost } }

/-! ## Decoding: words written out from rules R46 to R48 -/

theorem test_decode_setKeySize :
    decodeTableWord 32 0b00000001000000000000000010000000 = some (.setKeySize 128) := by decide
theorem test_decode_getKeySize :
    decodeTableWord 32 0b00000010000000000000000000000000 = some .getKeySize := by decide
theorem test_decode_setKey :
    decodeTableWord 32 0b00000011000000000000000000010000 = some (.setKey 16) := by decide
theorem test_decode_setupEnc :
    decodeTableWord 32 0b00000100000000000000000000000000 = some .setupEnc := by decide
theorem test_decode_setupDec :
    decodeTableWord 32 0b00000101000000000000000000000000 = some .setupDec := by decide
theorem test_decode_encrypt :
    decodeTableWord 32 0b00000110000000000000000000000000 = some .encrypt := by decide
theorem test_decode_decrypt :
    decodeTableWord 32 0b00000111000000000000000000000000 = some .decrypt := by decide
theorem test_decode_tblRead :
    decodeTableWord 32 0b00001000000000000000010101010011 = some (.tblRead .ts2 0x53) := by decide
theorem test_decode_rkRead :
    decodeTableWord 32 0b00001001000000000000000100110011 = some (.rkRead .drk 51) := by decide

/-- Every `SEL` value names the table of rule R47. -/
theorem test_decode_every_table :
    (List.range 8).map (fun k => decodeTableWord 32 (0x08000000 + 256 * k + 7)) =
      [TableSel.s1, .s2, .x1, .x2, .ts1, .ts2, .tx1, .tx2].map fun t => some (.tblRead t 7) := by
  decide

/-- The words section 2.6 marks illegal. -/
theorem test_illegal_words :
    [0x00000000, 0x01010080, 0x02000001, 0x04000001, 0x0600FFFF, 0x07800000, 0x08000800, 0x09000080,
     0x09000200, 0x0A000000, 0x80000000, 0xFF000000, 0xFFFFFFFF, 0x00000006].all
      (fun w => (decodeTableWord 32 w).isNone && illegalWord (BitVec.ofNat 32 w)) = true := by decide

/-- The encoder gives the example words of rule R48. -/
theorem test_encode_examples :
    [Instr.setKeySize 256, .getKeySize, .setKey 32, .setupEnc, .setupDec, .encrypt, .decrypt,
     .tblRead .ts2 0x53, .rkRead .drk 51].map encode =
    [0x01000100, 0x02000000, 0x03000020, 0x04000000, 0x05000000, 0x06000000, 0x07000000,
     0x08000553, 0x09000133] := by decide

/-! ## Well-formedness refuses ill-formed terms -/

theorem test_wf_size : (Instr.setKeySize 65536).wellFormed = false := by decide
theorem test_wf_length : (Instr.setKey 65536).wellFormed = false := by decide
theorem test_wf_index : (Instr.rkRead .erk 128).wellFormed = false := by decide
theorem test_wf_largest :
    [Instr.setKeySize 65535, .setKey 65535, .rkRead .drk 127].all Instr.wellFormed = true := by decide

/-! ## Commands: the outcome table of section 2.6 -/

theorem test_status_setKeySize :
    statuses (.setKeySize 128) = [some 0x20, some 0x20, some 0x20, some 0x20, some 0x20] ∧
    statuses (.setKeySize 100) = [some 0x01, some 0x21, some 0x25, some 0x2D, some 0x3D] := by
  decide +kernel
theorem test_status_getKeySize :
    statuses .getKeySize = [some 0x00, some 0x20, some 0x24, some 0x2C, some 0x3C] := by
  decide +kernel
theorem test_status_setKey :
    statuses (.setKey 16) = [some 0x01, some 0x24, some 0x24, some 0x24, some 0x24] ∧
    statuses (.setKey 15) = [some 0x01, some 0x21, some 0x25, some 0x2D, some 0x3D] := by
  decide +kernel
theorem test_status_setupEnc :
    statuses .setupEnc = [some 0x01, some 0x21, some 0x2C, some 0x2C, some 0x2C] := by
  decide +kernel
theorem test_status_setupDec :
    statuses .setupDec = [some 0x01, some 0x21, some 0x3C, some 0x3C, some 0x3C] := by
  decide +kernel
theorem test_status_encrypt :
    statuses .encrypt = [some 0x01, some 0x21, some 0x2C, some 0x2C, some 0x3C] := by
  decide +kernel
theorem test_status_decrypt :
    statuses .decrypt = [some 0x01, some 0x21, some 0x3C, some 0x3C, some 0x3C] := by
  decide +kernel
theorem test_status_tblRead :
    statuses (.tblRead .s1 0) = [some 0x00, some 0x20, some 0x24, some 0x2C, some 0x3C] := by
  decide +kernel
theorem test_status_rkRead :
    statuses (.rkRead .erk 0) = [some 0x01, some 0x21, some 0x25, some 0x2C, some 0x3C] ∧
    statuses (.rkRead .drk 0) = [some 0x01, some 0x21, some 0x25, some 0x2D, some 0x3C] ∧
    statuses (.rkRead .erk 52) = [some 0x01, some 0x21, some 0x25, some 0x2F, some 0x3F] ∧
    statuses (.rkRead .drk 127) = [some 0x01, some 0x21, some 0x25, some 0x2D, some 0x3F] := by
  decide +kernel

theorem test_illegal_status :
    five.map (fun s => after (execute 0x0A000000 s) statusWord) =
      [some 0x02, some 0x22, some 0x26, some 0x2E, some 0x3E] := by decide +kernel

/-! ## Commands: the values they leave -/

/-- Under `KSIZE_FAIL_POLICY = clear` a rejected size gives `STATUS` 0x01 from every state. -/
theorem test_setKeySize_clear :
    five.map (fun s => after (exec (.setKeySize 100) { s with cfg := withClear }) statusWord) =
      [some 0x01, some 0x01, some 0x01, some 0x01, some 0x01] := by decide +kernel
theorem test_getKeySize_result :
    five.map (fun s => after (exec .getKeySize s) (·.result)) =
      [some 0, some 0x80, some 0x80, some 0x80, some 0x80] := by decide +kernel
theorem test_setKey_bytes :
    after (exec (.setKey 24) (ctx .k192 0 false false false))
        (fun t => [t.masterKey[0], t.masterKey[5], t.masterKey[23], t.masterKey[24]]) =
      some [0x00, 0x05, 0x17, 0x00] := by decide +kernel
theorem test_setupEnc_words :
    after (exec .setupEnc (keyed .k128)) (fun t => (rkWord t.erk 0, rkWord t.erk 49)) =
      some (0xD415A75C, 0xAEE61BD7) := by decide +kernel
theorem test_setupDec_words :
    after (exec .setupDec (keyed .k128)) (fun t => rkGroup t.drk 4) =
      some ⟨0xCCB3A023, 0x0B6DAC1D, 0x53EEF49D, 0x961AA57F⟩ := by decide +kernel
theorem test_tblRead_entries :
    [(TableSel.s1, (0x53 : Byte)), (.s2, 0x02), (.x1, 0xCA), (.x2, 0xFF), (.ts1, 0x52), (.ts2, 0x53),
      (.tx1, 0x7D), (.tx2, 0xC3)].map (fun e => after (exec (.tblRead e.1 e.2) State.reset) (·.result)) =
    [some 0xED, some 0x54, some 0x10, some 0x60, some 0, some 0x38003838, some 0x13130013,
      some 0x95959500] := by decide +kernel
/-- The boundary of property T3: the last valid index and the first invalid one, for each size. -/
theorem test_rkRead_boundary :
    [(KeySize.k128, 51), (.k128, 52), (.k192, 59), (.k192, 60), (.k256, 67), (.k256, 68)].map
      (fun e => after (exec (.rkRead .erk e.2) (ctx e.1 0 true true true)) (·.err)) =
    [some 0, some 3, some 0, some 3, some 0, some 3] := by decide +kernel
/-- The published 128-bit vector, as one `ENCRYPT` from the state `K`. -/
theorem test_encrypt_published :
    after (exec .encrypt
        { keyed .k128 with din := ⟨0x00112233, 0x44556677, 0x8899AABB, 0xCCDDEEFF⟩ }) (·.dout) =
      some ⟨0xD718FBD6, 0xAB644C73, 0x9DA95F3B, 0xE6451778⟩ := by decide +kernel
/-- The published 128-bit vector backwards, as one `DECRYPT` from the state `K`. -/
theorem test_decrypt_published :
    after (exec .decrypt
        { keyed .k128 with din := ⟨0xD718FBD6, 0xAB644C73, 0x9DA95F3B, 0xE6451778⟩ }) (·.dout) =
      some ⟨0x00112233, 0x44556677, 0x8899AABB, 0xCCDDEEFF⟩ := by decide +kernel

/-! ## The host port -/

/-- A step performs the oldest access: a read of `DIN[1]` (offset 0x14) shows the word. -/
theorem test_step_read :
    after (step { pending (.read 5) with din := ⟨1, 2, 3, 4⟩ }) (fun t => (t.replies, t.queue.length)) =
      some ([2], 0) := by decide +kernel
/-- A write to `KEYBUF[7]` (offset 0x5C), and one to the reserved slot 0x60. -/
theorem test_step_write :
    after (step (pending (.write 23 0xDEADBEEF))) (·.keybuf[7]) = some 0xDEADBEEF ∧
    after (step (pending (.write 24 0xDEADBEEF))) (·.keybuf[0]) = some 0 := by decide +kernel
/-- The command word runs as the first instruction after reset (example 0x01000080 of rule R48). -/
theorem test_step_command :
    after (step (State.reset.withFetchWord 32 0x01000080)) (fun t => (t.ksize, t.queue.length)) =
      some (.k128, 0) := by decide +kernel
theorem test_step_reset :
    after (step { ctx .k256 32 true true true with queue := [.reset], err := 3 }) statusWord =
      some 0 := by decide +kernel
/-- `LOAD_KEY` of five bytes pads the second word and ends with `SET_KEY 5` (rule R52). -/
theorem test_loadKey_packs :
    loadKey Config.default [1, 2, 3, 4, 5] =
      [.write 16 0x01020304, .write 17 0x05000000, .write 0 0x03000005] := by decide
/-- `LOAD_KEY` of 40 bytes writes the eight words of `KEYBUF` and no other slot (log 18). -/
theorem test_loadKey_long :
    loadKey Config.default (List.replicate 40 0xFF) =
      (List.range 8).map (fun k => .write (BitVec.ofNat 5 (16 + k)) 0xFFFFFFFF) ++
        [.write 0 0x03000028] := by decide
/-- A machine with another `KRK` and another `AFF_A` gives other vectors and, after a reset, another
`S1[1]`: with an all-zero `AFF_A` the entry is the constant 0x63. -/
theorem test_parameters_are_read :
    krkSet (Vector.replicate 3 (⟨1, 2, 3, 4⟩ : Block)) 2 = ⟨1, 2, 3, 4⟩ ∧
    look (builtTables { Config.default with affA := Vector.replicate 8 0 }).s1 1 = 0x63 ∧
    look (builtTables Config.default).s1 1 = 0x7C := by decide +kernel

/-- Rule R37's window, offset by offset. -/
theorem test_window_offsets :
    [(0x00#7, WindowReg.cmd), (0x04, .status), (0x08, .result), (0x0C, .reserved), (0x10, .din 0),
      (0x1C, .din 3), (0x20, .dout 0), (0x2C, .dout 3), (0x30, .reserved), (0x3C, .reserved),
      (0x40, .keybuf 0), (0x5C, .keybuf 7), (0x60, .reserved), (0x7C, .reserved)].all
      (fun e => windowReg Offsets.default (slotOf e.1) = e.2) = true := by decide
/-- Rule R6: on a part with another host interface the command, the registers and the `STATUS` bits are
at its places, and nothing is left at the default ones. -/
theorem test_host_interface_is_read :
    let s := withOtherHost (ctx .k192 24 true true false)
    hostRead 30 { s with err := 3 } = 0xF4000000 ∧ hostRead 1 s = 0x04050607 ∧
    after (hostWrite 31 0x11000080 s) (fun t => (t.ksize, t.err)) = some (.k128, 0) ∧
    after (hostWrite 31 0x01000080 s) (fun t => (t.ksize, t.err)) = some (.k192, 2) ∧
    initSize s.cfg 256 = [.reset, .write 31 0x11000100] := by decide +kernel

/-! ## Table Builder, Round Engine, Key Scheduler -/

theorem test_gfMul :
    [gfMul 0x02 0x80, gfMul 0x57 0x83, gfMul 0xFF 0xFF, gfMul 0x00 0xA7, gfMul 0xA7 0x01] =
      [0x1B, 0xC1, 0x13, 0x00, 0xA7] := by decide
theorem test_affine :
    [0x01, 0xCA, 0x1C].map (affineA affA) ++ [0x01, 0x60, 0x09].map (affineB affB) =
      [0x1F, 0x8E, 0x75, 0xAC, 0xDA, 0x63] := by decide
theorem test_built_sbox_entries :
    let e := romTables.exp
    let l := romTables.log
    [affineA affA (inv e l 0x53) ^^^ c1, affineB affB (pow247 e l 0x53) ^^^ c2, pow247 e l 0x80, inv e l 0xFF] =
      [0xED, 0x38, 0x3A, 0x1C] := by decide +kernel
theorem test_substitution :
    [slA romTables 0x00112233, slB romTables 0x00112233, slA romTables 0x523063E2] =
      [0x8D147A0D, 0xD7BF163A, 0] := by decide +kernel
theorem test_diffusion_layers :
    pA ⟨1, 2, 4, 8⟩ = ⟨0x000B0D07, 0x0E0B0007, 0x0E000D07, 0x0E0B0D00⟩ ∧
    pB ⟨1, 2, 4, 8⟩ = ⟨0x0D07000B, 0x00070E0B, 0x0D070E00, 0x0D000E0B⟩ := by decide
theorem test_diff :
    diff ⟨0xDEADBEEF, 0x0BADF00D, 0xCAFEBABE, 0x8BADF00D⟩ =
      ⟨0x7DACD427, 0x44F00FE0, 0x6FEB66D2, 0x251127C8⟩ := by decide
theorem test_half_rounds :
    fA romTables Block.zero ⟨0xDEADBEEF, 0x0BADF00D, 0xCAFEBABE, 0x8BADF00D⟩ =
      ⟨0x4FD0A8D5, 0x4DE5709B, 0xF636E334, 0xAC1227CC⟩ ∧
    fB romTables Block.zero ⟨0xDEADBEEF, 0x0BADF00D, 0xCAFEBABE, 0x8BADF00D⟩ =
      ⟨0x099AA52F, 0x232CAFB9, 0xF6D412FE, 0xCD928F99⟩ := by decide +kernel
theorem test_output_transformation :
    load (outTransform romTables ⟨0x01234567, 0x12345678, 0xA5A5A5A5, 0x0F1E2D3C⟩
        ⟨0x11111111, 0x22222222, 0x33333333, 0x44444444⟩
        ⟨0x0F0AA16D, 0xAEE61BD7, 0xDFEE5A59, 0x9970FB35⟩) =
      ⟨0x7366812F, 0xA62A896F, 0xEADACA22, 0x55950232⟩ := by decide +kernel
theorem test_gsrk :
    [gsrk ⟨0xDEADBEEF, 0x0BADF00D, 0xCAFEBABE, 0x8BADF00D⟩
        ⟨0x01234567, 0x12345678, 0xA5A5A5A5, 0x0F1E2D3C⟩ 67,
      ror128 ⟨0x01234567, 0x12345678, 0xA5A5A5A5, 0x0F1E2D3C⟩ 109] =
    [⟨0xCA190A5B, 0xAA4E35AA, 0x4ADAD212, 0x69EB7AC2⟩,
      ⟨0x2B3891A2, 0xB3C52D2D, 0x2D2878F1, 0x69E0091A⟩] := by decide
/-- `W[3]` of the 192-bit key, which uses all three constants and `KR`. -/
theorem test_state_vector_192 :
    keyVector (contextVectors (keyed .k192)).w 3 =
      ⟨0xE1898F2E, 0x0E626CCF, 0x1F58BD50, 0x713C93BB⟩ := by decide +kernel

/-- `W[3]` of the 256-bit key under `KS_ORDER = (B, A, B)` (section 2.5). -/
theorem test_state_vector_256_bab :
    keyVector (contextVectors { keyed .k256 with cfg := withBab }).w 3 =
      ⟨0x81137FFB, 0xBAEE93EE, 0xABB56BC1, 0x769AC0BD⟩ := by decide +kernel

/-! ## Witnesses: concrete cases that meet the hypotheses of the statements -/

theorem witness_DecodeEncodeRoundTrip :
    Opcodes.default.all.Nodup ∧ otherHost.opcodes.all.Nodup ∧
    [Instr.setKeySize 0, .setKeySize 65535, .setKey 65535, .tblRead .tx2 255, .rkRead .drk 127].all
      Instr.wellFormed = true := by decide

theorem witness_DecodedWordsReencode :
    decodeWith otherHost.opcodes 0x1900017F = .ok (.rkRead .drk 127) ∧
    decode 0x0900017F = .ok (.rkRead .drk 127) := ⟨rfl, rfl⟩

theorem witness_OpcodeMapSelectsTheCommand :
    (⟨"TBL_READ", 0xFFFFF800, 0x08000000⟩ : OpcodeRow) ∈ opcodeRows ∧
    (⟨"RK_READ", 0xFFFFFE80, 0x09000000⟩ : OpcodeRow) ∈ opcodeRows := by decide

theorem witness_StepRunsTheDecodedCommand :
    ((withOtherHost (pending (.write 31 0x12000000))).queue =
        .write (withOtherHost (pending (.write 31 0x12000000))).cfg.host.offsets.cmd 0x12000000 :: [] ∧
      decodeWith (withOtherHost (pending (.write 31 0x12000000))).cfg.host.opcodes 0x12000000 =
        .ok .getKeySize) ∧
    (pending (.write 0 0x02000000)).cfg.host = HostInterface.default ∧
    (pending (.write 0 0x02000000)).queue = .write 0 0x02000000 :: [] ∧
    decode 0x02000000 = .ok .getKeySize := ⟨⟨rfl, rfl⟩, rfl, rfl, rfl⟩

theorem witness_IllegalWordsRaiseIllegalCommand :
    decodeWith otherHost.opcodes 0x01000080 = .error .reservedOpcode ∧
    decodeWith otherHost.opcodes 0x12000000 = .ok .getKeySize ∧
    State.reset.cfg.host.opcodes = Opcodes.default ∧
    illegalWord 0x0A000000 = true ∧ illegalWord 0x00FFFFFF = true ∧ illegalWord 0x09000080 = true ∧
    illegalWord 0x0900017F = false ∧ illegalWord 0x01000000 = false := by decide

/-- One access of each kind pending, two layouts, and slots at both ends of every read-only or reserved
range. -/
theorem witness_HostAccessesFollowTheWindow :
    (pending (.read 31)).queue = .read 31 :: [] ∧ (pending (.write 0 7)).queue = .write 0 7 :: [] ∧
    State.reset.cfg.host.offsets = Offsets.default ∧ (registerSlots Offsets.default).Nodup ∧
    (withOtherHost State.reset).cfg.host.offsets = otherHost.offsets ∧
    (registerSlots otherHost.offsets).Nodup ∧
    (keyed .k128).cfg.host.opcodes.all.Nodup ∧ (keyed .k128).ksize ≠ .unset ∧
    (keyed .k128).mkValid = true ∧
    ([3, 12, 15, 24, 31] : List (BitVec 5)).all (· ∉ registerSlots Offsets.default) = true ∧
    ([8, 11] : List (BitVec 5)).all (· ∈ slotsFrom Offsets.default.dout 4) = true :=
  ⟨rfl, rfl, rfl, by decide, rfl, by decide, by decide, by decide, rfl, by decide, by decide⟩

theorem witness_StatusShowsTheContext :
    (pending (.read 1)).cfg.host = HostInterface.default ∧
    (pending (.read 1)).queue = .read 1 :: [] := ⟨rfl, rfl⟩

theorem witness_WindowReadsSeeTheLatestWrite :
    State.reset.cfg.host.offsets = Offsets.default ∧ (registerSlots Offsets.default).Nodup ∧
    ([1, 4, 7, 16, 23, 31] : List (BitVec 5)).all (fun slot => slot ≠ Offsets.default.cmd) = true ∧
    ([4, 7] : List (BitVec 5)).all (· ∈ slotsFrom Offsets.default.din 4) = true ∧
    ([16, 23] : List (BitVec 5)).all (· ∈ slotsFrom Offsets.default.keybuf 8) = true := by
  refine ⟨rfl, ?_, ?_, ?_, ?_⟩ <;> decide

theorem witness_EveryStepAnswersANextState : State.reset.queue = [] := rfl

theorem witness_ResetEventPerformsTheSequence :
    ({ ctx .k256 32 true true true with queue := [.reset, .read 1] } : State).queue =
      .reset :: [.read 1] := rfl

theorem witness_InitPseudoInstruction :
    (65535 < 65536 ∧ State.reset.cfg.host.opcodes.all.Nodup ∧
      ({ State.reset with queue := initSize Config.default 65535 } : State).queue =
        initSize State.reset.cfg 65535 ++ []) ∧
    (128 < 65536 ∧ (withOtherHost State.reset).cfg.host.opcodes.all.Nodup ∧
      ({ withOtherHost State.reset with
          queue := [.reset, .write 31 0x11000080, .read 1] } : State).queue =
        initSize (withOtherHost State.reset).cfg 128 ++ [.read 1]) :=
  ⟨⟨by decide, by decide, rfl⟩, by decide, by decide, rfl⟩

theorem witness_GfMulIsAFieldProduct : (1 : Byte) ≠ 0 ∧ (255 : Byte) ≠ 0 := by decide

/-- Indices at both ends of every range the three generator-table statements quantify over. -/
theorem witness_ExpTableHoldsThePowers :
    (1 : Byte) ≠ 0 ∧ (255 : Byte) ≠ 0 ∧ (254 : Byte) ≠ 255 ∧
    look (buildExp gen) 0 = 1 := ⟨by decide, by decide, by decide, rfl⟩

/-- Indices at both ends, and a table that inverts `EXP` in the stated range. -/
theorem witness_LogTableInvertsExp :
    (1 ≤ (1 : Byte).toNat ∧ (1 : Byte).toNat ≤ 254 ∧ 1 ≤ (254 : Byte).toNat ∧
      (254 : Byte).toNat ≤ 254 ∧ (255 : Byte) ≠ 0) ∧
    ∀ v : Byte, v ≠ 0 →
      look romTables.exp (look romTables.log v) = v ∧ (look romTables.log v).toNat ≤ 254 := by
  decide +kernel

theorem witness_InvIsTheFieldInverse : (1 : Byte) ≠ 0 ∧ (255 : Byte) ≠ 0 := by decide

/-- The first `k` powers of `g` from `e` on. -/
def powers (g : Byte) : (k : Nat) → (e : Byte) → List Byte
  | 0, _ => []
  | k + 1, e => e :: powers g k (gfMul e g)

theorem mem_powers {g v : Byte} : ∀ (k n : Nat), v ∈ powers g k (expAt g n) →
    ∃ m, m < n + k ∧ expAt g m = v
  | 0, _, h => by simp [powers] at h
  | k + 1, n, h => by
    rcases List.mem_cons.mp h with h | h
    · exact ⟨n, by omega, h.symm⟩
    · obtain ⟨m, hm, he⟩ := mem_powers k (n + 1) h
      exact ⟨m, by omega, he⟩

theorem isGenerator_of_powers {g : Byte}
    (h : ∀ v : Byte, v ≠ 0 → v ∈ powers g 255 (expAt g 0)) : IsGenerator g := by
  intro v hv
  obtain ⟨m, hm, he⟩ := mem_powers 255 0 (h v hv)
  exact ⟨m, by omega, he⟩

/-- `GEN` is a generator, and 0x05 is another (section 2.1). -/
theorem witness_TablesDoNotDependOnTheGenerator :
    IsGenerator Config.default.gen ∧ IsGenerator 0x05 :=
  ⟨isGenerator_of_powers (by decide +kernel), isGenerator_of_powers (by decide +kernel)⟩

/-- A machine with the tables of a table build and a command pending: a step and a table read answer
next states. -/
theorem witness_TablesAreImmutable :
    let s : State := { pending (.write 0 0x08000553) with tables := tableBuild Config.default }
    s.tables = tableBuild s.cfg ∧ (∃ t, step s = .next t) ∧
      ∃ t, exec (.tblRead .ts2 0x53) s = .next t :=
  ⟨rfl, ⟨_, rfl⟩, _, rfl⟩

theorem witness_CryptIsTheHalfRoundSequence :
    [KeySize.k128, .k192, .k256].map KeySize.rounds = [12, 14, 16] := by decide

/-- Two storages that differ beyond the 52 words of a 128-bit schedule only. -/
theorem witness_CryptReadsOnlyTheSchedule :
    let rk : Vector Word 68 := tabulate 68 fun i => BitVec.ofNat 32 i
    let rk' : Vector Word 68 := tabulate 68 fun i => if i < 52 then BitVec.ofNat 32 i else 0
    KeySize.k128 ≠ .unset ∧ rk ≠ rk' ∧
      ∀ i, i < KeySize.k128.rkWords → rkWord rk i = rkWord rk' i := by decide +kernel

theorem witness_DecryptionScheduleInvertsEncryption :
    KeySize.k128 ≠ .unset ∧ KeySize.k192 ≠ .unset ∧ KeySize.k256 ≠ .unset := by decide

theorem witness_PublishedVectorsAreReproduced :
    KeySize.k128 ≠ .unset ∧ KeySize.k192 ≠ .unset ∧ KeySize.k256 ≠ .unset := by decide

theorem witness_RotationOf128BitsInWords :
    (0 < 1 ∧ 1 < 128) ∧ (0 < 127 ∧ 127 < 128) ∧ ((0 : Nat) < 4 ∧ 1 ≤ 1 ∧ 1 ≤ 31) ∧
    ((3 : Nat) < 4 ∧ 1 ≤ 31 ∧ 31 ≤ 31) := by decide

/-- Both orders of half-rounds, a state with a key, and the three alternatives of the state-vector
statement, each met by its key size. -/
theorem witness_StateVectorSteps :
    let mk := (keyed .k256).masterKey
    (Config.default.ksOrder = .aba ∧ withBab.ksOrder = .bab) ∧
    ((keyed .k128).ksize ≠ .unset ∧ (keyed .k128).mkValid = true) ∧
    (KeySize.k128 = .k128 ∧ krkSet Config.default.krk 0 = Config.default.krk[0] ∧
      krkSet Config.default.krk 1 = Config.default.krk[1] ∧
      krkSet Config.default.krk 2 = Config.default.krk[2] ∧ keyRight mk .k128 = ⟨0, 0, 0, 0⟩) ∧
    keyRight mk .k192 =
      ⟨be32 mk[16] mk[17] mk[18] mk[19], be32 mk[20] mk[21] mk[22] mk[23], 0, 0⟩ ∧
    keyRight mk .k256 =
      ⟨be32 mk[16] mk[17] mk[18] mk[19], be32 mk[20] mk[21] mk[22] mk[23],
        be32 mk[24] mk[25] mk[26] mk[27], be32 mk[28] mk[29] mk[30] mk[31]⟩ :=
  ⟨⟨rfl, rfl⟩, ⟨by decide, rfl⟩, ⟨rfl, rfl, rfl, rfl, rfl⟩, rfl, rfl⟩

/-- Two master keys that agree on their first 16 bytes only, under a 128-bit size. -/
theorem witness_OnlyTheDeclaredKeyBytesMatter :
    let mk : Vector Byte 32 := tabulate 32 fun i => BitVec.ofNat 8 i
    let mk' : Vector Byte 32 := tabulate 32 fun i => if i < 16 then BitVec.ofNat 8 i else 0
    mk ≠ mk' ∧ ∀ i : Fin 32, i.val < KeySize.k128.bits / 8 → mk[i.val] = mk'[i.val] := by
  decide +kernel

/-- The last group of each length, and words at both ends of the part that is not written. -/
theorem witness_EncryptionScheduleGroups :
    (KeySize.k128 ≠ .unset ∧ 12 < KeySize.k128.rounds + 1 ∧ KeySize.k128.rkWords ≤ 52 ∧ 52 < 68) ∧
    (KeySize.k192 ≠ .unset ∧ 14 < KeySize.k192.rounds + 1 ∧ KeySize.k192.rkWords ≤ 67 ∧ 67 < 68) ∧
    (KeySize.k256 ≠ .unset ∧ 16 < KeySize.k256.rounds + 1) := by decide

/-- The first and the last inner group, the last schedule word and the words beyond. -/
theorem witness_DecryptionScheduleClosedForm :
    (KeySize.k128 ≠ .unset ∧ 1 ≤ 1 ∧ 1 < KeySize.k128.rounds ∧ 51 < KeySize.k128.rkWords ∧
      KeySize.k128.rkWords ≤ 52 ∧ 52 < 68) ∧
    (KeySize.k256 ≠ .unset ∧ 1 ≤ 15 ∧ 15 < KeySize.k256.rounds ∧ 67 < KeySize.k256.rkWords) := by
  decide

theorem witness_SetKeySizeAcceptsOrRejects :
    KeySize.k192.bits = 192 ∧ KeySize.k192.rounds = 14 ∧
    (0 ≠ 128 ∧ 0 ≠ 192 ∧ 0 ≠ 256) ∧ (127 ≠ 128 ∧ 257 ≠ 256) ∧
    State.reset.cfg.ksizeFailPolicy = .keep ∧
    ({ State.reset with cfg := withClear } : State).cfg.ksizeFailPolicy = .clear := by decide

/-- Exactly enough bytes, too many, one too few, and no size. -/
theorem witness_SetKeyStoresTheKey :
    (keyed .k128).ksize ≠ .unset ∧ (keyed .k128).ksize.bits ≤ 16 * 8 ∧
    (keyed .k256).ksize.bits ≤ 65535 * 8 ∧ 15 * 8 < (keyed .k128).ksize.bits ∧
    State.reset.ksize = .unset := by decide

theorem witness_SetupEncBuildsTheEncryptionSchedule :
    (keyed .k192).ksize ≠ .unset ∧ (keyed .k192).mkValid = true ∧ State.reset.ksize = .unset ∧
    (ctx .k128 0 false false false).mkValid = false := by decide

/-- A key and no schedule, a schedule present, neither, and no size. -/
theorem witness_SetupDecDerivesTheDecryptionSchedule :
    ((keyed .k128).ksize ≠ .unset ∧ (keyed .k128).encValid = false ∧ (keyed .k128).mkValid = true) ∧
    ((ctx .k256 32 true true false).ksize ≠ .unset ∧
      (ctx .k256 32 true true false).encValid = true) ∧
    ((ctx .k128 0 false false false).encValid = false ∧
      (ctx .k128 0 false false false).mkValid = false) ∧ State.reset.ksize = .unset := by decide

/-- A key and no schedule, both schedules present, neither key nor schedule, and no size. -/
theorem witness_EncryptProducesTheBlock :
    ((keyed .k192).ksize ≠ .unset ∧ (keyed .k192).encValid = false ∧ (keyed .k192).mkValid = true) ∧
    ((ctx .k128 16 true true true).ksize ≠ .unset ∧ (ctx .k128 16 true true true).encValid = true) ∧
    ((ctx .k192 0 false false false).encValid = false ∧
      (ctx .k192 0 false false false).mkValid = false) ∧ State.reset.ksize = .unset := by decide

theorem witness_DecryptProducesTheBlock :
    ((keyed .k128).ksize ≠ .unset ∧ (keyed .k128).decValid = false ∧
      (keyed .k128).encValid = false ∧ (keyed .k128).mkValid = true) ∧
    (ctx .k192 24 true true false).encValid = true ∧ (ctx .k256 32 true true true).decValid = true ∧
    ((ctx .k128 0 false false false).decValid = false ∧
      (ctx .k128 0 false false false).encValid = false ∧
      (ctx .k128 0 false false false).mkValid = false) := by decide

/-- Present and absent schedules, and the indices on both sides of each length. -/
theorem witness_RkReadReturnsTheWord :
    (ctx .k128 16 true true true).encValid = true ∧ (ctx .k128 16 true true true).decValid = true ∧
    State.reset.encValid = false ∧ State.reset.decValid = false ∧
    51 < 4 * ((ctx .k128 16 true true true).ksize.rounds + 1) ∧
    4 * ((ctx .k128 16 true true true).ksize.rounds + 1) ≤ 52 ∧
    67 < 4 * ((ctx .k256 32 true true true).ksize.rounds + 1) ∧
    4 * ((ctx .k192 24 true true true).ksize.rounds + 1) ≤ 60 := by decide

/-- A command that answers with `InvalidKey`: a rejected size under either policy, and another cause. -/
theorem witness_InvalidKeyHasExactlyTheListedCauses :
    (∃ t, exec (.setKeySize 0) (keyed .k128) = .next t) ∧
    invalidKeyCause (.setKeySize 0) (keyed .k128) ∧
    (∃ t, exec (.setKeySize 0) { keyed .k128 with cfg := withClear } = .next t) ∧
    withClear.ksizeFailPolicy = .clear ∧
    (∃ t, exec .encrypt State.reset = .next t) ∧ invalidKeyCause .encrypt State.reset :=
  ⟨⟨_, rfl⟩, ⟨by decide, by decide, by decide⟩, ⟨_, rfl⟩, rfl, ⟨_, rfl⟩, .inl rfl⟩

theorem witness_OutOfRangeHasExactlyOneCause :
    (∃ t, exec (.rkRead .drk 52) (ctx .k128 16 true true true) = .next t) ∧
    schedValid (ctx .k128 16 true true true) .drk = true ∧
    4 * ((ctx .k128 16 true true true).ksize.rounds + 1) ≤ 52 :=
  ⟨⟨_, rfl⟩, rfl, by decide⟩

/-- An illegal word, and a rejected size under the policy `clear`. -/
theorem witness_FailedCommandsChangeOnlyErr :
    (∃ t, execute 0x0A000000 (keyed .k128) = .next t ∧ t.err ≠ 0) ∧
    (∃ t, execute 0x01000064 { keyed .k128 with cfg := withClear } = .next t ∧ t.err ≠ 0) :=
  ⟨⟨_, rfl, by decide⟩, _, rfl, by decide⟩

/-- The state `E` with all-one words in both schedules. -/
def ctxOnes : State :=
  { ctx .k128 16 true true false with
    erk := tabulate 68 (fun _ => 0xFFFFFFFF), drk := tabulate 68 fun _ => 1 }

/-- For each clause a command that does change the part the clause is about. -/
theorem witness_CommandsChangeOnlyTheirOwnState :
    (∃ t, exec .getKeySize (keyed .k128) = .next t ∧ t.result ≠ (keyed .k128).result) ∧
    (∃ t, exec (.setKey 16) { keyed .k128 with keybuf := tabulate 8 fun _ => 1 } = .next t ∧
      t.masterKey ≠ (keyed .k128).masterKey) ∧
    (∃ t, exec (.setKeySize 256) (keyed .k128) = .next t ∧ t.ksize ≠ (keyed .k128).ksize ∧
      t.mkValid ≠ (keyed .k128).mkValid) ∧
    (∃ t, exec .setupEnc (keyed .k128) = .next t ∧ t.encValid ≠ (keyed .k128).encValid ∧
      t.work ≠ (keyed .k128).work) ∧
    (∃ t, exec .setupDec ctxOnes = .next t ∧ t.decValid ≠ ctxOnes.decValid ∧
      t.fresh ≠ ctxOnes.fresh) ∧
    (∃ t, exec .setupEnc (keyed .k128) = .next t ∧ t.erk ≠ (keyed .k128).erk) ∧
    (∃ t, exec .setupDec ctxOnes = .next t ∧ t.drk ≠ ctxOnes.drk) ∧
    (∃ t, exec .encrypt ctxOnes = .next t ∧ t.dout ≠ ctxOnes.dout) :=
  ⟨⟨_, rfl, by decide⟩, ⟨_, rfl, by decide +kernel⟩, ⟨_, rfl, by decide, by decide⟩,
   ⟨_, rfl, by decide, fun h => absurd (congrArg Work.j h) (by decide)⟩,
   ⟨_, rfl, by decide, by decide⟩, ⟨_, rfl, fun h => absurd (congrArg (rkWord · 0) h) (by decide +kernel)⟩,
   ⟨_, rfl, fun h => absurd (congrArg (rkWord · 0) h) (by decide +kernel)⟩, _, rfl, by decide +kernel⟩

theorem witness_KeybufMattersToSetKeyAlone :
    (∀ len, Instr.encrypt ≠ .setKey len) ∧ ∃ t, exec .encrypt (keyed .k128) = .next t :=
  ⟨(fun _ h => by cases h), _, rfl⟩

/-- A state with a key and no schedule meets the context invariants. -/
theorem keyed_contextInv (k : KeySize) (hk : k ≠ .unset) : ContextInv (keyed k) where
  keyNeedsSize := fun _ => hk
  encNeedsKey := fun h => by cases h
  decNeedsEnc := fun h => by cases h
  encDerived := fun h => by cases h
  decDerived := fun h => by cases h

theorem witness_EveryStepKeepsTheContextInvariants :
    ContextInv { keyed .k256 with queue := [.write 0 0x05000000] } ∧
    ∃ t, step { keyed .k256 with queue := [.write 0 0x05000000] } = .next t :=
  ⟨{ keyed_contextInv .k256 (by decide) with }, _, rfl⟩

theorem witness_ContextStateMachine :
    (ContextInv (keyed .k192) ∧ ∃ t, exec .decrypt (keyed .k192) = .next t) ∧
    ({ keyed .k192 with queue := [.reset] } : State).queue = .reset :: [] :=
  ⟨⟨keyed_contextInv .k192 (by decide), _, rfl⟩, rfl⟩

theorem witness_LazySetupIsTheSetupIssuedBefore :
    (keyed .k128).ksize ≠ .unset ∧ (keyed .k128).mkValid = true ∧ (keyed .k128).encValid = false ∧
    (keyed .k128).decValid = false ∧ (ctx .k128 16 true true false).encValid = true ∧
    (ctx .k128 16 true true false).decValid = false := by decide

theorem witness_EncryptThenDecryptReturnsTheBlock :
    ContextInv (keyed .k256) ∧ TablesBuilt (keyed .k256) ∧ (keyed .k256).mkValid = true :=
  ⟨keyed_contextInv .k256 (by decide), rfl, rfl⟩

/-- Two different states the host cannot tell apart, both about to run `ENCRYPT`: other working
registers, an absent schedule with other words, another count of free values. -/
theorem witness_UnspecifiedStateIsNeverObserved :
    let s : State := { keyed .k128 with queue := [.write 0 0x06000000] }
    let s' : State := { s with
      work := { s.work with q := 2, j := 5 }, drk := tabulate 68 fun _ => 1, fresh := 3 }
    SameToHost s s' ∧ s.work.j ≠ s'.work.j ∧ (∃ t, step s = .next t) ∧ ∃ t, step s' = .next t :=
  ⟨⟨rfl, rfl, rfl, fun _ => rfl, rfl, fun _ _ _ => rfl, rfl, (fun h => by cases h), rfl, rfl, rfl, rfl,
    rfl, rfl, rfl, rfl⟩, by decide, ⟨_, rfl⟩, _, rfl⟩

end Sys2Proof.Tests
end

section
/-! The opcode map of rule R48 against the decoder of rule R53: both say of a word what its three
fields are, so they are compared field by field. -/

namespace Sys2Proof

/-! ## Words and their fields -/

/-- A field of a bit vector is 0 exactly when the mask of its bits selects nothing. -/
theorem extractLsb'_eq_zero_iff {w : Nat} (x : BitVec w) (start len : Nat) :
    x.extractLsb' start len = 0#len ↔
      x &&& (BitVec.allOnes len).setWidth w <<< start = 0#w := by
  constructor
  · intro hfield
    ext k hk
    have hbit := congrArg (·.getLsbD (k - start)) hfield
    grind
  · intro hmask
    ext k hk
    have hbit := congrArg (·.getLsbD (start + k)) hmask
    grind

/-- A command word is `OP`, `RSV` and `ARG` in this order (rule R46). -/
theorem fields_append (c : Word) : opField c ++ (rsvField c ++ argField c) = c := by
  have hlow : rsvField c ++ argField c = c.extractLsb' 0 24 :=
    BitVec.extractLsb'_append_extractLsb'_eq_extractLsb' rfl
  rw [hlow]
  exact BitVec.extractLsb'_append_extractLsb' (w := 8) (len := 24)

/-- A command word is given by its fields. -/
theorem word_eq_iff_fields {c d : Word} :
    c = d ↔ opField c = opField d ∧ rsvField c = rsvField d ∧ argField c = argField d := by
  refine ⟨fun hcd => hcd ▸ ⟨rfl, rfl, rfl⟩, fun ⟨hop, hrsv, harg⟩ => ?_⟩
  rw [← fields_append c, hop, hrsv, harg, fields_append]

@[simp] theorem opField_and (c m : Word) : opField (c &&& m) = opField c &&& opField m :=
  BitVec.extractLsb'_and

@[simp] theorem rsvField_and (c m : Word) : rsvField (c &&& m) = rsvField c &&& rsvField m :=
  BitVec.extractLsb'_and

@[simp] theorem argField_and (c m : Word) : argField (c &&& m) = argField c &&& argField m :=
  BitVec.extractLsb'_and

/-! ## Must-be-zero bits and operands of a command -/

/-- The bits of `ARG` that must be 0 in a command's word (rule R47). -/
def Instr.zeroBits : Instr → BitVec 16
  | .setKeySize _ => 0
  | .getKeySize => 0xFFFF
  | .setKey _ => 0
  | .setupEnc => 0xFFFF
  | .setupDec => 0xFFFF
  | .encrypt => 0xFFFF
  | .decrypt => 0xFFFF
  | .tblRead _ _ => 0xF800
  | .rkRead _ _ => 0xFE80

/-- The same command with the operands that stand in `ARG` (rules R47, R53). -/
def Instr.readOperands (arg : BitVec 16) : Instr → Instr
  | .setKeySize _ => .setKeySize arg.toNat
  | .getKeySize => .getKeySize
  | .setKey _ => .setKey arg.toNat
  | .setupEnc => .setupEnc
  | .setupDec => .setupDec
  | .encrypt => .encrypt
  | .decrypt => .decrypt
  | .tblRead _ _ => .tblRead (TableSel.ofCode (arg.extractLsb' 8 3)) (arg.extractLsb' 0 8)
  | .rkRead _ _ => .rkRead (Sched.ofCode (arg.extractLsb' 8 1)) (arg.extractLsb' 0 7).toNat

@[simp] theorem Instr.mnemonic_readOperands (arg : BitVec 16) (i : Instr) :
    (i.readOperands arg).mnemonic = i.mnemonic := by cases i <;> rfl

/-- `ARG[15:11] = 0` as a mask. -/
theorem and_tblReadZeroBits_eq_zero_iff {arg : BitVec 16} :
    arg &&& 0xF800 = 0 ↔ arg.extractLsb' 11 5 = 0 :=
  (extractLsb'_eq_zero_iff arg 11 5).symm

/-- `ARG[15:9] = 0` and `ARG[7] = 0` as one mask. -/
theorem and_rkReadZeroBits_eq_zero_iff {arg : BitVec 16} :
    arg &&& 0xFE80 = 0 ↔ arg.extractLsb' 9 7 = 0 ∧ arg.extractLsb' 7 1 = 0 := by
  have hmask : (0xFE80 : BitVec 16) =
      (BitVec.allOnes 7).setWidth 16 <<< 9 ||| (BitVec.allOnes 1).setWidth 16 <<< 7 := by decide
  rw [hmask, BitVec.and_or_distrib_left]
  exact BitVec.or_eq_zero_iff.trans
    (and_congr (extractLsb'_eq_zero_iff arg 9 7).symm (extractLsb'_eq_zero_iff arg 7 1).symm)

/-! ## What a word that decodes holds -/

/-- A word with `RSV = 0`, the opcode of a command and that command's must-be-zero bits clear decodes to
the command with the operands in `ARG` (rules R47, R53). -/
theorem decode_eq_readOperands {c : Word} {i : Instr} (hrsv : rsvField c = 0)
    (hop : opField c = i.opcode Opcodes.default) (hzero : argField c &&& i.zeroBits = 0) :
    decode c = .ok (i.readOperands (argField c)) := by
  cases i with
  | tblRead sel idx =>
    have hbits := and_tblReadZeroBits_eq_zero_iff.1 hzero
    simp [decode, decodeWith, decodeTblRead, hrsv, hop, hbits, Instr.opcode, Opcodes.default,
      Instr.readOperands]
  | rkRead sched idx =>
    have hbits := and_rkReadZeroBits_eq_zero_iff.1 hzero
    simp [decode, decodeWith, decodeRkRead, hrsv, hop, hbits, Instr.opcode, Opcodes.default,
      Instr.readOperands]
  | setKeySize | setKey =>
    simp [decode, decodeWith, hrsv, hop, Instr.opcode, Opcodes.default, Instr.readOperands]
  | getKeySize | setupEnc | setupDec | encrypt | decrypt =>
    have harg : argField c = 0 := (BitVec.and_allOnes (x := argField c)).symm.trans hzero
    simp [decode, decodeWith, decodePlain, hrsv, hop, harg, Instr.opcode, Opcodes.default,
      Instr.readOperands]

/-- Without an operand only `ARG = 0` decodes (rule R49). -/
theorem decodePlain_ok {i j : Instr} {arg : BitVec 16} (h : decodePlain i arg = .ok j) :
    j = i ∧ arg &&& 0xFFFF = 0 := by
  unfold decodePlain at h
  split at h
  · next harg => exact ⟨(Except.ok.inj h).symm, by simp [harg]⟩
  · cases h

/-- `TBL_READ` decodes only with its five must-be-zero bits clear (rules R47, R49). -/
theorem decodeTblRead_ok {i : Instr} {arg : BitVec 16} (h : decodeTblRead arg = .ok i) :
    (∃ sel idx, i = .tblRead sel idx) ∧ arg &&& 0xF800 = 0 := by
  unfold decodeTblRead at h
  split at h
  · next hbits => exact ⟨⟨_, _, (Except.ok.inj h).symm⟩, and_tblReadZeroBits_eq_zero_iff.2 hbits⟩
  · cases h

/-- `RK_READ` decodes only with its eight must-be-zero bits clear (rules R47, R49). -/
theorem decodeRkRead_ok {i : Instr} {arg : BitVec 16} (h : decodeRkRead arg = .ok i) :
    (∃ sched idx, i = .rkRead sched idx) ∧ arg &&& 0xFE80 = 0 := by
  unfold decodeRkRead at h
  split at h
  · next hbits => exact ⟨⟨_, _, (Except.ok.inj h).symm⟩, and_rkReadZeroBits_eq_zero_iff.2 hbits⟩
  · cases h

/-- A word that decodes has `RSV = 0`, the opcode of its command and that command's must-be-zero bits
clear (rules R47, R49), whatever the opcode numbers. -/
theorem decodeWith_ok_fields {o : Opcodes} {c : Word} {i : Instr} (h : decodeWith o c = .ok i) :
    rsvField c = 0 ∧ opField c = i.opcode o ∧ argField c &&& i.zeroBits = 0 := by
  simp only [decodeWith] at h
  split_ifs at h with hrsv hsize hgetSize hkey henc hdec hencrypt hdecrypt htbl hrk
  all_goals rw [not_not] at hrsv
  · cases h
    exact ⟨hrsv, hsize, BitVec.and_zero⟩
  · obtain ⟨rfl, hzero⟩ := decodePlain_ok h
    exact ⟨hrsv, hgetSize, hzero⟩
  · cases h
    exact ⟨hrsv, hkey, BitVec.and_zero⟩
  · obtain ⟨rfl, hzero⟩ := decodePlain_ok h
    exact ⟨hrsv, henc, hzero⟩
  · obtain ⟨rfl, hzero⟩ := decodePlain_ok h
    exact ⟨hrsv, hdec, hzero⟩
  · obtain ⟨rfl, hzero⟩ := decodePlain_ok h
    exact ⟨hrsv, hencrypt, hzero⟩
  · obtain ⟨rfl, hzero⟩ := decodePlain_ok h
    exact ⟨hrsv, hdecrypt, hzero⟩
  · obtain ⟨⟨sel, idx, rfl⟩, hzero⟩ := decodeTblRead_ok h
    exact ⟨hrsv, htbl, hzero⟩
  · obtain ⟨⟨sched, idx, rfl⟩, hzero⟩ := decodeRkRead_ok h
    exact ⟨hrsv, hrk, hzero⟩

/-! ## The rows -/

/-- A row of the opcode map compares all of `OP`, asks for `RSV = 0` and for zeros in the bits of `ARG`
that it compares. -/
theorem opcodeRows_fields : ∀ r ∈ opcodeRows,
    opField r.mask = BitVec.allOnes 8 ∧ rsvField r.mask = BitVec.allOnes 8 ∧
    rsvField r.pattern = 0 ∧ argField r.pattern = 0 := by decide

/-- A row of the opcode map, read field by field (rule R48). -/
theorem selects_iff_fields {r : OpcodeRow} (hr : r ∈ opcodeRows) (c : Word) :
    r.selects c = true ↔ opField c = opField r.pattern ∧ rsvField c = 0 ∧
      argField c &&& argField r.mask = 0 := by
  obtain ⟨hopMask, hrsvMask, hrsv, harg⟩ := opcodeRows_fields r hr
  rw [OpcodeRow.selects, beq_iff_eq, word_eq_iff_fields, opField_and, rsvField_and, argField_and,
    hopMask, hrsvMask, hrsv, harg, BitVec.and_allOnes, BitVec.and_allOnes]

/-- The row of a command's mnemonic has that command's opcode and must-be-zero bits. -/
theorem row_fields_of_mnemonic {r : OpcodeRow} (hr : r ∈ opcodeRows) {i : Instr}
    (hname : i.mnemonic = r.mnemonic) :
    opField r.pattern = i.opcode Opcodes.default ∧ argField r.mask = i.zeroBits := by
  revert r
  cases i <;> simp only [Instr.mnemonic, Instr.opcode, Instr.zeroBits] <;> decide

/-- Every row's mnemonic is that of a command (rule R48). -/
theorem exists_instr_of_row {r : OpcodeRow} (hr : r ∈ opcodeRows) :
    ∃ i : Instr, i.mnemonic = r.mnemonic := by
  have hsome : ∀ r ∈ opcodeRows, ∃ i ∈ [Instr.setKeySize 0, .getKeySize, .setKey 0, .setupEnc,
      .setupDec, .encrypt, .decrypt, .tblRead .s1 0, .rkRead .erk 0], i.mnemonic = r.mnemonic := by
    decide
  obtain ⟨i, _, hname⟩ := hsome r hr
  exact ⟨i, hname⟩

/-- A row selects the words that decode to its command: both ask for its opcode, `RSV = 0` and its
must-be-zero bits. -/
theorem selects_iff_decode {r : OpcodeRow} (hr : r ∈ opcodeRows) (c : Word) :
    r.selects c = true ↔ ∃ i, decode c = .ok i ∧ i.mnemonic = r.mnemonic := by
  rw [selects_iff_fields hr]
  constructor
  · rintro ⟨hop, hrsv, hzero⟩
    obtain ⟨i, hname⟩ := exists_instr_of_row hr
    obtain ⟨hopcode, hbits⟩ := row_fields_of_mnemonic hr hname
    exact ⟨_, decode_eq_readOperands hrsv (hop.trans hopcode) (hbits ▸ hzero),
      (i.mnemonic_readOperands _).trans hname⟩
  · rintro ⟨i, hdecode, hname⟩
    obtain ⟨hopcode, hbits⟩ := row_fields_of_mnemonic hr hname
    obtain ⟨hrsv, hop, hzero⟩ := decodeWith_ok_fields hdecode
    exact ⟨hop.trans hopcode.symm, hrsv, hbits ▸ hzero⟩

/-- Settles O4: row and decoder are compared field by field, and the nine examples are computed. -/
theorem opcodeMapSelectsTheCommand : Obligations.OpcodeMapSelectsTheCommand := by
  unfold Obligations.OpcodeMapSelectsTheCommand
  exact ⟨fun c r hr => selects_iff_decode hr c, by decide⟩

end Sys2Proof
end

section
/-! The generator tables `EXP` and `LOG` and the S-boxes read through them (`spec/40_table_builder.md`
rules R56, R57, R59, R61, R64): what one entry of a table written entry by entry holds, and what a table
that inverts `EXP` must hold when the element is a generator. From these the construction is compared with
the printed tables. -/

namespace Sys2Proof.Machine

/-! ## Tables entry by entry -/

/-- Two tables with the same entries are one table. -/
theorem table_ext {α : Type} {a b : Vector α 256} (h : ∀ i : Byte, look a i = look b i) : a = b := by
  ext n hn
  have hentry := h (BitVec.ofNat 8 n)
  simpa [look, Nat.mod_eq_of_lt hn] using hentry

/-- A table of bytes after `t[keys[i]] <- i` for each `i` of a list in order: the loop of the rules R57,
R61 and R64. -/
def scatter (keys : Vector Byte 256) (t : Vector Byte 256) (l : List Nat) : Vector Byte 256 :=
  l.foldl (fun t i => t.setIfInBounds (look keys (BitVec.ofNat 8 i)).toNat (BitVec.ofNat 8 i)) t

theorem buildLog_eq_scatter (exp : Vector Byte 256) :
    buildLog exp = scatter exp (tabulate 256 fun _ => 0) (List.range' 1 254) := rfl

theorem buildInverse_eq_scatter (unwritten : Nat → Byte) (s : Vector Byte 256) :
    buildInverse unwritten s = scatter s (tabulate 256 unwritten) (List.range 256) := rfl

/-- One write of that loop, read back. -/
theorem look_setIfInBounds (t : Vector Byte 256) (k x v : Byte) :
    look (t.setIfInBounds k.toNat x) v = if k = v then x else look t v := by
  simp only [look, Vector.getElem_setIfInBounds, BitVec.toNat_inj]

/-- After the loop an entry holds an index whose key it is, or no key names it and it is as before. -/
theorem look_scatter_cases (keys : Vector Byte 256) (v : Byte) (l : List Nat) (t : Vector Byte 256) :
    (∃ i ∈ l, look keys (BitVec.ofNat 8 i) = v ∧ look (scatter keys t l) v = BitVec.ofNat 8 i) ∨
    ((∀ i ∈ l, look keys (BitVec.ofNat 8 i) ≠ v) ∧ look (scatter keys t l) v = look t v) := by
  induction l generalizing t with
  | nil => exact .inr ⟨by simp, rfl⟩
  | cons i l ih =>
    have hcons : scatter keys t (i :: l) = scatter keys
      (t.setIfInBounds (look keys (BitVec.ofNat 8 i)).toNat (BitVec.ofNat 8 i)) l := rfl
    rw [hcons]
    rcases ih (t.setIfInBounds (look keys (BitVec.ofNat 8 i)).toNat (BitVec.ofNat 8 i)) with
      ⟨j, hj, hkey, hlook⟩ | ⟨hnone, hlook⟩
    · exact .inl ⟨j, List.mem_cons_of_mem i hj, hkey, hlook⟩
    · rw [look_setIfInBounds] at hlook
      by_cases hkey : look keys (BitVec.ofNat 8 i) = v
      · exact .inl ⟨i, List.mem_cons_self, hkey, hlook.trans (if_pos hkey)⟩
      · exact .inr ⟨List.forall_mem_cons.2 ⟨hkey, hnone⟩, hlook.trans (if_neg hkey)⟩

/-- What one entry of `LOG` holds (rule R57). -/
theorem look_buildLog_cases (exp : Vector Byte 256) (v : Byte) :
    (∃ i, 1 ≤ i ∧ i ≤ 254 ∧ look exp (BitVec.ofNat 8 i) = v ∧
      look (buildLog exp) v = BitVec.ofNat 8 i) ∨
    ((∀ i, 1 ≤ i → i ≤ 254 → look exp (BitVec.ofNat 8 i) ≠ v) ∧ look (buildLog exp) v = 0) := by
  have hmem : ∀ i, i ∈ List.range' 1 254 ↔ 1 ≤ i ∧ i ≤ 254 := by
    intro i
    rw [List.mem_range'_1]
    omega
  rw [buildLog_eq_scatter]
  rcases look_scatter_cases exp v (List.range' 1 254) (tabulate 256 fun _ => 0) with
    ⟨i, hi, hkey, hlook⟩ | ⟨hnone, hlook⟩
  · obtain ⟨hlow, hhigh⟩ := (hmem i).1 hi
    exact .inl ⟨i, hlow, hhigh, hkey, hlook⟩
  · exact .inr ⟨fun i hlow hhigh => hnone i ((hmem i).2 ⟨hlow, hhigh⟩),
      hlook.trans (look_tabulate _ v)⟩

/-- The inverse table of a permutation is its inverse, whatever the table held before the loop (rules
R61, R64). -/
theorem buildInverse_eq_of_leftInverse {s x : Vector Byte 256} (hxs : ∀ i, look x (look s i) = i)
    (unwritten : Nat → Byte) : buildInverse unwritten s = x := by
  refine table_ext fun v => ?_
  have hinj : Function.Injective (look s) := Function.LeftInverse.injective hxs
  obtain ⟨k, hk⟩ := Finite.injective_iff_surjective.1 hinj v
  rw [buildInverse_eq_scatter]
  rcases look_scatter_cases s v (List.range 256) (tabulate 256 unwritten) with
    ⟨i, -, hkey, hlook⟩ | ⟨hnone, -⟩
  · rw [hlook, ← hkey, hxs]
  · have hwrites := hnone k.toNat (List.mem_range.2 k.isLt)
    rw [BitVec.ofNat_toNat, BitVec.setWidth_eq] at hwrites
    exact absurd hk hwrites

/-! ## The powers of a generator -/

theorem look_buildExp (g i : Byte) : look (buildExp g) i = expAt g i.toNat := look_tabulate _ i

theorem look_buildExp_zero (g : Byte) : look (buildExp g) 0 = 1 := look_buildExp g 0

/-- The recurrence of rule R56. -/
theorem look_buildExp_of_ne_zero (g : Byte) {i : Byte} (hi : i ≠ 0) :
    look (buildExp g) i = gfMul (look (buildExp g) (i - 1)) g := by
  have hsucc : i.toNat = (i - 1).toNat + 1 := by bv_omega
  rw [look_buildExp, look_buildExp, hsucc, expAt]

/-- `GF_MUL(e, 3)` is `e` times x plus itself, reduced once (rule R56). -/
theorem gfMul_three (e : Byte) : gfMul e 0x03 = expStepShift e := by
  have hloop : gfMul e 0x03 = (e.setWidth 9 ^^^ gfDouble (e.setWidth 9)).setWidth 8 := by
    simp [gfMul, gfMulLoop]
  have hcarry : ((e.setWidth 9 : BitVec 9) <<< 1 ^^^ e.setWidth 9).getLsbD 8 =
      ((e.setWidth 9 : BitVec 9) <<< 1).getLsbD 8 := by
    simp
  rw [hloop, gfDouble, expStepShift, hcarry]
  split
  · rw [← BitVec.xor_assoc, BitVec.xor_comm (e.setWidth 9)]
  · rw [BitVec.xor_comm]

/-- The recurrence of rule R56 determines the table. -/
theorem buildExp_eq_of_recurrence {g : Byte} {exp : Vector Byte 256} (hfirst : look exp 0 = 1)
    (hnext : ∀ i : Byte, i ≠ 0 → look exp i = gfMul (look exp (i - 1)) g) : buildExp g = exp := by
  have hentry : ∀ n, ∀ i : Byte, i.toNat = n → look (buildExp g) i = look exp i := by
    intro n
    induction n with
    | zero =>
      intro i hi
      obtain rfl : i = 0 := by bv_omega
      rw [look_buildExp_zero, hfirst]
    | succ n ih =>
      intro i hi
      have hne : i ≠ 0 := by bv_omega
      rw [look_buildExp_of_ne_zero g hne, hnext i hne, ih (i - 1) (by bv_omega)]
  exact table_ext fun i => hentry i.toNat i rfl

theorem card_nonzero_bytes : (Finset.univ.erase (0 : Byte)).card = 255 := by
  rw [Finset.card_erase_of_mem (Finset.mem_univ 0), Finset.card_univ, ← FinEnum.card_eq_fintypeCard,
    FinEnum.card_bitVec]
  rfl

/-- The first 255 powers of a generator are the nonzero bytes. -/
theorem image_expAt_of_isGenerator {g : Byte} (hg : IsGenerator g) :
    (Finset.range 255).image (expAt g) = Finset.univ.erase 0 := by
  have hcovers : Finset.univ.erase 0 ⊆ (Finset.range 255).image (expAt g) := by
    intro v hv
    obtain ⟨n, hn, hpow⟩ := hg v (Finset.ne_of_mem_erase hv)
    exact Finset.mem_image.2 ⟨n, Finset.mem_range.2 hn, hpow⟩
  have hcard : ((Finset.range 255).image (expAt g)).card ≤ (Finset.univ.erase (0 : Byte)).card :=
    Finset.card_image_le.trans (by rw [card_nonzero_bytes, Finset.card_range])
  exact (Finset.eq_of_subset_of_card_le hcovers hcard).symm

theorem expAt_ne_zero {g : Byte} (hg : IsGenerator g) {n : Nat} (hn : n < 255) : expAt g n ≠ 0 := by
  have hmem := Finset.mem_image_of_mem (expAt g) (Finset.mem_range.2 hn)
  rw [image_expAt_of_isGenerator hg] at hmem
  exact Finset.ne_of_mem_erase hmem

/-- The 255 powers are as many as the nonzero bytes, so no two are equal. -/
theorem expAt_injOn {g : Byte} (hg : IsGenerator g) :
    Set.InjOn (expAt g) (Finset.range 255 : Set Nat) := by
  rw [← Finset.card_image_iff, image_expAt_of_isGenerator hg, card_nonzero_bytes, Finset.card_range]

/-- `EXP[0..254]` has no entry twice. -/
theorem look_buildExp_inj {g : Byte} (hg : IsGenerator g) {i j : Byte} (hi : i.toNat ≤ 254)
    (hj : j.toNat ≤ 254) (h : look (buildExp g) i = look (buildExp g) j) : i = j := by
  rw [look_buildExp, look_buildExp] at h
  have hlt : ∀ {n : Nat}, n ≤ 254 → n ∈ (Finset.range 255 : Set Nat) := by
    intro n hn
    simpa using Nat.lt_succ_of_le hn
  exact BitVec.eq_of_toNat_eq (expAt_injOn hg (hlt hi) (hlt hj) h)

/-- `EXP[0..254]` has every nonzero byte. -/
theorem exists_look_buildExp {g : Byte} (hg : IsGenerator g) {v : Byte} (hv : v ≠ 0) :
    ∃ i : Byte, i.toNat ≤ 254 ∧ look (buildExp g) i = v := by
  obtain ⟨n, hn, hpow⟩ := hg v hv
  have hnat : (BitVec.ofNat 8 n).toNat = n := Nat.mod_eq_of_lt (by omega)
  exact ⟨BitVec.ofNat 8 n, by omega, by rw [look_buildExp, hnat, hpow]⟩

/-! ## Tables that invert `EXP` -/

/-- `EXP[LOG[v]] = v` with `LOG[v]` in 0 .. 254, for every nonzero `v`: what rule R57 asks of a
construction of `LOG`. -/
def IsLogOf (exp log : Vector Byte 256) : Prop :=
  ∀ v : Byte, v ≠ 0 → look exp (look log v) = v ∧ (look log v).toNat ≤ 254

/-- Such a table inverts `EXP` from the other side too. -/
theorem IsLogOf.look_look_buildExp {g : Byte} {log : Vector Byte 256} (hlog : IsLogOf (buildExp g) log)
    (hg : IsGenerator g) {i : Byte} (hi : i.toNat ≤ 254) : look log (look (buildExp g) i) = i := by
  have hne : look (buildExp g) i ≠ 0 := look_buildExp g i ▸ expAt_ne_zero hg (by omega)
  obtain ⟨hexp, hrange⟩ := hlog _ hne
  exact look_buildExp_inj hg hrange hi hexp

/-- Two such tables agree on every nonzero byte. -/
theorem IsLogOf.look_eq {g : Byte} {log log' : Vector Byte 256} (hlog : IsLogOf (buildExp g) log)
    (hlog' : IsLogOf (buildExp g) log') (hg : IsGenerator g) {v : Byte} (hv : v ≠ 0) :
    look log v = look log' v := by
  obtain ⟨hexp, hrange⟩ := hlog v hv
  calc look log v = look log' (look (buildExp g) (look log v)) :=
        (hlog'.look_look_buildExp hg hrange).symm
    _ = look log' v := by rw [hexp]

/-- Of the nonzero bytes 1 alone has logarithm 0. -/
theorem IsLogOf.look_eq_zero_iff {g : Byte} {log : Vector Byte 256} (hlog : IsLogOf (buildExp g) log)
    (hg : IsGenerator g) {i : Byte} (hi : i ≠ 0) : look log i = 0 ↔ i = 1 := by
  have hfirst := hlog.look_look_buildExp hg (i := 0) (by decide)
  rw [look_buildExp_zero] at hfirst
  refine ⟨fun hzero => ?_, fun hone => hone ▸ hfirst⟩
  rw [← (hlog i hi).1, hzero, look_buildExp_zero]

/-- The loop of rule R57 inverts `EXP`: entry 1, which it does not write, keeps the right 0. -/
theorem isLogOf_buildLog {g : Byte} (hg : IsGenerator g) :
    IsLogOf (buildExp g) (buildLog (buildExp g)) := by
  intro v hv
  rcases look_buildLog_cases (buildExp g) v with ⟨i, -, hi, hkey, hlook⟩ | ⟨hnone, hlook⟩
  · rw [hlook]
    exact ⟨hkey, by rw [BitVec.toNat_ofNat]; omega⟩
  · obtain ⟨i, hi, hexp⟩ := exists_look_buildExp hg hv
    have hzero : i = 0 := by
      by_contra hne
      exact hnone i.toNat (by bv_omega) hi (by simpa using hexp)
    rw [hlook, ← hzero]
    exact ⟨hexp, hi⟩

/-- No power is 0, so the filler stays. -/
theorem look_buildLog_zero {g : Byte} (hg : IsGenerator g) : look (buildLog (buildExp g)) 0 = 0 := by
  rcases look_buildLog_cases (buildExp g) 0 with ⟨i, -, hi, hkey, -⟩ | ⟨-, hlook⟩
  · rw [look_buildExp, BitVec.toNat_ofNat] at hkey
    exact absurd hkey (expAt_ne_zero hg (by omega))
  · exact hlook

/-- `LOG` is the one table that inverts `EXP` and has the filler 0 at 0. -/
theorem buildLog_eq_of_isLogOf {g : Byte} (hg : IsGenerator g) {log : Vector Byte 256}
    (hlog : IsLogOf (buildExp g) log) (hzero : look log 0 = 0) : buildLog (buildExp g) = log := by
  refine table_ext fun v => ?_
  by_cases hv : v = 0
  · rw [hv, look_buildLog_zero hg, hzero]
  · exact (isLogOf_buildLog hg).look_eq hlog hg hv

/-! ## What the S-boxes read of `LOG` -/

theorem inv_zero (exp log : Vector Byte 256) : inv exp log 0 = 0 := if_pos rfl

theorem inv_of_ne_zero (exp log : Vector Byte 256) {i : Byte} (hi : i ≠ 0) :
    inv exp log i = look exp (BitVec.ofNat 8 (255 - (look log i).toNat)) := if_neg hi

theorem pow247_zero (exp log : Vector Byte 256) : pow247 exp log 0 = 0 := if_pos rfl

theorem pow247_of_ne_zero (exp log : Vector Byte 256) {i : Byte} (hi : i ≠ 0) :
    pow247 exp log i = look exp (BitVec.ofNat 8 ((247 * (look log i).toNat) % 255)) := if_neg hi

/-- `INV` and `POW247` do not read `LOG[0]` (rules R59, R62). -/
theorem inv_pow247_congr_log (exp : Vector Byte 256) {log log' : Vector Byte 256}
    (h : ∀ v : Byte, v ≠ 0 → look log v = look log' v) (i : Byte) :
    inv exp log i = inv exp log' i ∧ pow247 exp log i = pow247 exp log' i := by
  by_cases hi : i = 0
  · subst hi
    simp only [inv_zero, pow247_zero, and_self]
  · simp only [inv_of_ne_zero _ _ hi, pow247_of_ne_zero _ _ hi, h i hi, and_self]

/-- The S-boxes read `LOG` through `INV` and `POW247` only. -/
theorem sboxes_congr_log (a b : BitMatrix) (exp : Vector Byte 256) {log log' : Vector Byte 256}
    (h : ∀ v : Byte, v ≠ 0 → look log v = look log' v) :
    buildS1 a exp log = buildS1 a exp log' ∧ buildS2 b exp log = buildS2 b exp log' := by
  have hinv : inv exp log = inv exp log' := funext fun i => (inv_pow247_congr_log exp h i).1
  have hpow : pow247 exp log = pow247 exp log' := funext fun i => (inv_pow247_congr_log exp h i).2
  exact ⟨by rw [buildS1, buildS1, hinv], by rw [buildS2, buildS2, hpow]⟩

/-! ## The printed tables -/

/-- An entry of a printed table, without building the table. -/
theorem look_romTable (rows : List Nat) (i : Byte) : look (romTable rows) i = romEntry rows i.toNat :=
  look_tabulate _ i

/-- The printed `EXP` follows the recurrence of rule R56. -/
theorem look_expRows_of_ne_zero (i : Byte) (hi : i ≠ 0) :
    look (romTable expRows) i = gfMul (look (romTable expRows) (i - 1)) gen := by
  simp only [look_romTable]
  revert i
  decide +kernel

/-- The printed `LOG` inverts the printed `EXP`. -/
theorem isLogOf_logRows : IsLogOf (romTable expRows) (romTable logRows) := by
  simp only [IsLogOf, look_romTable]
  decide +kernel

/-- The printed `S1` is what rule R61 makes of the printed `EXP` and `LOG`. -/
theorem buildS1_rows : buildS1 affA (romTable expRows) (romTable logRows) = romTable s1Rows := by
  refine table_ext fun i => ?_
  simp only [buildS1, look_tabulate, BitVec.ofNat_toNat, BitVec.setWidth_eq, inv, look_romTable]
  revert i
  decide +kernel

/-- The printed `S2` is what rule R64 makes of the printed `EXP` and `LOG`. -/
theorem buildS2_rows : buildS2 affB (romTable expRows) (romTable logRows) = romTable s2Rows := by
  refine table_ext fun i => ?_
  simp only [buildS2, look_tabulate, BitVec.ofNat_toNat, BitVec.setWidth_eq, pow247, look_romTable]
  revert i
  decide +kernel

/-- The printed `X1` and `X2` undo the printed `S1` and `S2`. -/
theorem look_inverseRows (i : Byte) :
    look (romTable x1Rows) (look (romTable s1Rows) i) = i ∧
    look (romTable x2Rows) (look (romTable s2Rows) i) = i := by
  simp only [look_romTable]
  revert i
  decide +kernel

theorem buildExp_gen : buildExp gen = romTable expRows :=
  buildExp_eq_of_recurrence (by decide) look_expRows_of_ne_zero

/-- `GEN = 0x03` is a generator: the printed `LOG` names the power of every nonzero byte. -/
theorem isGenerator_gen : IsGenerator gen := by
  intro v hv
  obtain ⟨hexp, hrange⟩ := isLogOf_logRows v hv
  rw [← buildExp_gen, look_buildExp] at hexp
  exact ⟨_, Nat.lt_succ_of_le hrange, hexp⟩

theorem buildLog_expRows : buildLog (romTable expRows) = romTable logRows := by
  have hlog : IsLogOf (buildExp gen) (romTable logRows) := buildExp_gen ▸ isLogOf_logRows
  rw [← buildExp_gen, buildLog_eq_of_isLogOf isGenerator_gen hlog (by decide)]

/-- `i` times `EXP[255 - LOG[i]]` over the printed tables is 1 (rule R59). -/
theorem gfMul_inv_rows (i : Byte) (hi : i ≠ 0) :
    gfMul i (inv (romTable expRows) (romTable logRows) i) = 1 := by
  simp only [inv_of_ne_zero _ _ hi, look_romTable]
  revert i
  decide +kernel

/-- With the default `GEN`, `AFF_A` and `AFF_B` the table build gives the printed tables, whatever the
other parameters are (rules R54, R65). -/
theorem tableBuild_eq_romTables {cfg : Config} (hgen : cfg.gen = gen) (haffA : cfg.affA = affA)
    (haffB : cfg.affB = affB) : tableBuild cfg = romTables := by
  have hx1 : ∀ u, buildInverse u (romTable s1Rows) = romTable x1Rows :=
    buildInverse_eq_of_leftInverse fun i => (look_inverseRows i).1
  have hx2 : ∀ u, buildInverse u (romTable s2Rows) = romTable x2Rows :=
    buildInverse_eq_of_leftInverse fun i => (look_inverseRows i).2
  simp only [tableBuild, romTables, hgen, haffA, haffB, buildExp_gen, buildLog_expRows, buildS1_rows,
    buildS2_rows, hx1, hx2]

/-- A reset builds the tables of the machine's parameters, as constants or by the construction (rules
R54, R129). -/
theorem builtTables_eq_tableBuild (cfg : Config) : builtTables cfg = tableBuild cfg := by
  rcases builtTables_cases cfg with ⟨hgen, haffA, haffB, hbuilt⟩ | hbuilt
  · rw [hbuilt, tableBuild_eq_romTables hgen haffA haffB]
  · exact hbuilt

/-! ## The statements -/

/-- Settles O17: `LOG` is the one inverse of `EXP`, since the powers of a generator are distinct, and the
S-boxes read an inverse of `EXP` at nonzero bytes only. -/
theorem logTableInvertsExp : Obligations.LogTableInvertsExp := by
  unfold Obligations.LogTableInvertsExp
  have hlog : IsLogOf (buildExp gen) (buildLog (buildExp gen)) := isLogOf_buildLog isGenerator_gen
  refine ⟨fun i _ hi => hlog.look_look_buildExp isGenerator_gen hi, fun v hv => (hlog v hv).1, ?_, ?_,
    look_buildLog_zero isGenerator_gen, ?_, ?_⟩
  · intro v
    by_cases hv : v = 0
    · rw [hv, look_buildLog_zero isGenerator_gen]
      decide
    · exact (hlog v hv).2
  · have hfirst := hlog.look_look_buildExp isGenerator_gen (i := 0) (by decide)
    rwa [look_buildExp_zero] at hfirst
  · rw [buildExp_gen, buildLog_expRows]
  · intro log hinverts
    have hlogExp : IsLogOf (buildExp gen) log := buildExp_gen ▸ hinverts
    have hrows : IsLogOf (buildExp gen) (romTable logRows) := buildExp_gen ▸ isLogOf_logRows
    obtain ⟨hs1, hs2⟩ := sboxes_congr_log affA affB (romTable expRows)
      fun v hv => hlogExp.look_eq hrows isGenerator_gen hv
    exact ⟨hs1.trans buildS1_rows, hs2.trans buildS2_rows⟩

/-- Settles O16: the table is the powers of a generator by definition, the printed one obeys the same
recurrence, and 255 powers on 255 nonzero bytes take each once. -/
theorem expTableHoldsThePowers : Obligations.ExpTableHoldsThePowers := by
  unfold Obligations.ExpTableHoldsThePowers
  have hle : ∀ i : Byte, i ≠ 255 → i.toNat ≤ 254 := by
    intro i hi
    bv_omega
  refine ⟨look_buildExp_zero gen, fun i hi => look_buildExp_of_ne_zero gen hi, gfMul_three,
    fun v hv => ?_, ?_, buildExp_gen⟩
  · obtain ⟨i, hi, hexp⟩ := exists_look_buildExp isGenerator_gen hv
    refine ⟨i, by rintro rfl; exact absurd hi (by decide), hexp, fun j hj hjexp => ?_⟩
    exact look_buildExp_inj isGenerator_gen (hle j hj) hi (hjexp.trans hexp.symm)
  · rw [buildExp_gen]
    decide

/-- Settles O18: the index is the definition of `INV`, its range is that of `LOG`, and the product is
computed over the printed tables. -/
theorem invIsTheFieldInverse : Obligations.InvIsTheFieldInverse := by
  unfold Obligations.InvIsTheFieldInverse
  refine ⟨inv_zero _ _, fun i hi => ?_, by decide, by decide, by decide, by decide, by decide,
    by decide⟩
  have hlog : IsLogOf (buildExp gen) (romTable logRows) := buildExp_gen ▸ isLogOf_logRows
  have hrange : (look romTables.log i).toNat ≤ 254 := (hlog i hi).2
  have hone : look romTables.log i = 0 ↔ i = 1 := hlog.look_eq_zero_iff isGenerator_gen hi
  refine ⟨inv_of_ne_zero _ _ hi, by omega, ?_, gfMul_inv_rows i hi⟩
  rw [← hone]
  bv_omega

end Sys2Proof.Machine
end

section
/-! The tables along a run (`spec/40_table_builder.md` rule R70): no command writes them, and a reset
builds the same ones again. -/

namespace Sys2Proof.Machine

theorem raise_tables {e : ErrKind} {s t : State} (h : raise e s = .next t) : t.tables = s.tables := by
  rw [raise_next h]

theorem succeed_tables {s t : State} (h : succeed s = .next t) : t.tables = s.tables := by
  rw [succeed_next h]

theorem failedSize_tables (s : State) : (failedSize s).tables = s.tables := by
  rcases failedSize_cases s with ⟨-, he⟩ | ⟨-, he⟩ <;> rw [he]
  exact setContextSize_tables .unset s

/-- `SET_KEY_SIZE` answers with a new context or with the failure effect (rule R103). -/
theorem execSetKeySize_cases (size : Nat) (s : State) :
    (∃ k, execSetKeySize size s = succeed (setContextSize k s)) ∨
    execSetKeySize size s = raise .invalidKey (failedSize s) := by
  unfold execSetKeySize
  cases KeySize.ofSize size with
  | none => exact .inr rfl
  | some k => exact .inl ⟨k, rfl⟩

/-- No command writes a table entry (rule R70). -/
theorem exec_tables {i : Instr} {s t : State} (h : exec i s = .next t) : t.tables = s.tables := by
  cases i with
  | setKeySize size =>
    rcases execSetKeySize_cases size s with ⟨k, he⟩ | he
    · exact (succeed_tables (he.symm.trans h)).trans (setContextSize_tables k s)
    · exact (raise_tables (he.symm.trans h)).trans (failedSize_tables s)
  | getKeySize => exact (succeed_tables h).trans rfl
  | setKey len =>
    rcases execSetKey_cases len s with ⟨-, he⟩ | ⟨-, -, he⟩
    · exact raise_tables (he.symm.trans h)
    · exact (succeed_tables (he.symm.trans h)).trans rfl
  | setupEnc =>
    rcases execSetupEnc_cases s with ⟨-, he⟩ | ⟨-, -, he⟩
    · exact raise_tables (he.symm.trans h)
    · exact (succeed_tables (he.symm.trans h)).trans (encSetup_tables s)
  | setupDec =>
    rcases execSetupDec_cases s with ⟨-, he⟩ | ⟨-, -, he⟩
    · exact raise_tables (he.symm.trans h)
    · exact (succeed_tables (he.symm.trans h)).trans (decSetup_tables s)
  | encrypt =>
    rcases execEncrypt_cases s with ⟨-, he⟩ | ⟨-, -, he⟩
    · exact raise_tables (he.symm.trans h)
    · exact (succeed_tables (he.symm.trans h)).trans (ensureEnc_tables s)
  | decrypt =>
    rcases execDecrypt_cases s with ⟨-, he⟩ | ⟨-, -, he⟩
    · exact raise_tables (he.symm.trans h)
    · exact (succeed_tables (he.symm.trans h)).trans (ensureDec_tables s)
  | tblRead sel idx => exact (succeed_tables h).trans rfl
  | rkRead sched idx =>
    rcases execRkRead_cases sched idx s with ⟨-, he⟩ | ⟨-, -, he⟩ | ⟨-, -, he⟩
    · exact raise_tables (he.symm.trans h)
    · exact raise_tables (he.symm.trans h)
    · exact (succeed_tables (he.symm.trans h)).trans rfl

/-- A write at the host port, the command word's included, changes no table entry. -/
theorem hostWrite_tables {slot : BitVec 5} {v : Word} {s t : State} (h : hostWrite slot v s = .next t) :
    t.tables = s.tables := by
  rcases hostWrite_cases slot v s with ⟨-, he⟩ | ⟨k, -, he⟩ | ⟨k, -, he⟩ | he <;> rw [he] at h
  · rcases execute_cases v s with ⟨i, -, hrun⟩ | ⟨e, -, hrun⟩ <;> rw [hrun] at h
    · exact exec_tables h
    · exact raise_tables h
  all_goals
    cases h
    rfl

/-- A step leaves the tables as they are, or it is a reset and builds them for the same parameters. -/
theorem step_tables {s t : State} (h : step s = .next t) :
    t.tables = s.tables ∨ t.tables = tableBuild s.cfg := by
  rcases step_cases s with ⟨-, he⟩ | ⟨slot, v, rest, -, he⟩ | ⟨slot, rest, -, he⟩ | ⟨rest, -, he⟩ <;>
    rw [he] at h
  · cases h
    exact .inl rfl
  · exact .inl ((hostWrite_tables h).trans rfl)
  · cases h
    exact .inl (readAccess_tables slot _)
  · cases h
    exact .inr ((resetEvent_tables _).trans (builtTables_eq_tableBuild s.cfg))

/-- What `TBL_READ` answers (rule R110). -/
theorem exec_tblRead_result {sel : TableSel} {idx : Byte} {s t : State}
    (h : exec (.tblRead sel idx) s = .next t) : t.result = tableEntry s.tables sel idx := by
  replace h : succeed { s with result := tableEntry s.tables sel idx } = .next t := h
  rw [succeed_next h]

/-- Settles O23: a command keeps the tables, a reset builds them again, and the constants a reset may take
instead are what the table build gives. -/
theorem tablesAreImmutable : Obligations.TablesAreImmutable := by
  unfold Obligations.TablesAreImmutable
  refine ⟨fun s t hs h => ?_, fun i s t h => exec_tables h, fun sel idx s t hs h => ?_⟩
  · rcases step_tables h with hkept | hbuilt
    · exact hkept.trans hs
    · exact hbuilt
  · rw [exec_tblRead_result h, hs]

end Sys2Proof.Machine
end

section
/-! Words as four bytes (`spec/00_scope.md` rule R7): what the word operations of the Round Engine do
byte by byte. -/

namespace Sys2Proof

/-! ## Packing and the word operations -/

/-- Every word is made of its four bytes. -/
theorem be32_bytes (w : Word) : be32 (byte3 w) (byte2 w) (byte1 w) (byte0 w) = w := by
  have hhigh : byte3 w ++ byte2 w = w.extractLsb' 16 16 :=
    BitVec.extractLsb'_append_extractLsb'_eq_extractLsb' rfl
  have hupper : w.extractLsb' 16 16 ++ byte1 w = w.extractLsb' 8 24 :=
    BitVec.extractLsb'_append_extractLsb'_eq_extractLsb' rfl
  unfold be32
  rw [hhigh, hupper]
  exact BitVec.extractLsb'_append_extractLsb' (w := 24) (len := 8)

theorem be32_xor (a b c d a' b' c' d' : Byte) :
    be32 a b c d ^^^ be32 a' b' c' d' = be32 (a ^^^ a') (b ^^^ b') (c ^^^ c') (d ^^^ d') := by
  unfold be32
  ext k hk
  grind

theorem be32_and (a b c d a' b' c' d' : Byte) :
    be32 a b c d &&& be32 a' b' c' d' = be32 (a &&& a') (b &&& b') (c &&& c') (d &&& d') := by
  unfold be32
  ext k hk
  grind

theorem be32_shiftLeft_byte (a b c d : Byte) : be32 a b c d <<< 8 = be32 b c d 0 := by
  unfold be32
  ext k hk
  grind

theorem be32_ushiftRight_byte (a b c d : Byte) : be32 a b c d >>> 8 = be32 0 a b c := by
  unfold be32
  ext k hk
  grind

/-- Two bytes up. -/
theorem be32_shiftLeft_half (a b c d : Byte) : be32 a b c d <<< 16 = be32 c d 0 0 := by
  rw [BitVec.shiftLeft_add _ 8 8, be32_shiftLeft_byte, be32_shiftLeft_byte]

/-- Two bytes down. -/
theorem be32_ushiftRight_half (a b c d : Byte) : be32 a b c d >>> 16 = be32 0 0 a b := by
  rw [BitVec.shiftRight_add _ 8 8, be32_ushiftRight_byte, be32_ushiftRight_byte]

/-- A whole byte passes the mask `0xFF`. -/
theorem byte_and_ff (a : Byte) : a &&& 255#8 = a := BitVec.and_allOnes

/-! ## XOR of words and of blocks -/

theorem word_xor_left_comm (x y z : Word) : x ^^^ (y ^^^ z) = y ^^^ (x ^^^ z) := by
  rw [← BitVec.xor_assoc, BitVec.xor_comm x y, BitVec.xor_assoc]

theorem word_xor_cancel_left (x y : Word) : x ^^^ (x ^^^ y) = y := by
  rw [← BitVec.xor_assoc, BitVec.xor_self, BitVec.zero_xor]

theorem Block.word_zero (i : Nat) : Block.zero.word i = 0 := by
  unfold Block.word
  split <;> rfl

theorem Block.word_xor (x y : Block) (i : Nat) : (x.xor y).word i = x.word i ^^^ y.word i := by
  unfold Block.word
  split <;> rfl

end Sys2Proof
end

section
/-! The Round Engine's linear part (`spec/41_round_engine.md` sections 3 and 4): `MIX`, the three byte
permutations, the byte-lane steps and the two diffusion layers built from them. Each stage is shown to be an
involution that commutes with XOR, from its closed form. -/

namespace Sys2Proof.Machine

/-! ## The byte permutations of a word -/

theorem badc_be32 (a b c d : Byte) : badc (be32 a b c d) = be32 b a d c := by
  change (be32 a b c d <<< 8 &&& be32 0xFF 0 0xFF 0) ^^^ (be32 a b c d >>> 8 &&& be32 0 0xFF 0 0xFF) = _
  rw [be32_shiftLeft_byte, be32_ushiftRight_byte, be32_and, be32_and, be32_xor]
  simp [byte_and_ff]

theorem cdab_be32 (a b c d : Byte) : cdab (be32 a b c d) = be32 c d a b := by
  change (be32 a b c d <<< 16 &&& be32 0xFF 0xFF 0 0) ^^^ (be32 a b c d >>> 16 &&& be32 0 0 0xFF 0xFF) = _
  rw [be32_shiftLeft_half, be32_ushiftRight_half, be32_and, be32_and, be32_xor]
  simp [byte_and_ff]

theorem dcba_be32 (a b c d : Byte) : dcba (be32 a b c d) = be32 d c b a := by
  change ((be32 a b c d &&& be32 0 0 0 0xFF) <<< (16 + 8)) ^^^ ((be32 a b c d &&& be32 0 0 0xFF 0) <<< 8) ^^^
    ((be32 a b c d &&& be32 0 0xFF 0 0) >>> 8) ^^^ ((be32 a b c d &&& be32 0xFF 0 0 0) >>> (16 + 8)) = _
  rw [BitVec.shiftLeft_add, BitVec.shiftRight_add]
  simp only [be32_and, be32_shiftLeft_byte, be32_shiftLeft_half, be32_ushiftRight_byte,
    be32_ushiftRight_half, be32_xor]
  simp [byte_and_ff]

theorem badc_badc (w : Word) : badc (badc w) = w := by
  rw [← be32_bytes w, badc_be32, badc_be32]

theorem cdab_cdab (w : Word) : cdab (cdab w) = w := by
  rw [← be32_bytes w, cdab_be32, cdab_be32]

theorem dcba_dcba (w : Word) : dcba (dcba w) = w := by
  rw [← be32_bytes w, dcba_be32, dcba_be32]

theorem dcba_eq_badc_cdab (w : Word) : dcba w = badc (cdab w) := by
  rw [← be32_bytes w, dcba_be32, cdab_be32, badc_be32]

theorem dcba_eq_cdab_badc (w : Word) : dcba w = cdab (badc w) := by
  rw [← be32_bytes w, dcba_be32, badc_be32, cdab_be32]

theorem badc_xor (v w : Word) : badc (v ^^^ w) = badc v ^^^ badc w := by
  rw [← be32_bytes v, ← be32_bytes w, be32_xor]
  simp only [badc_be32, be32_xor]

theorem cdab_xor (v w : Word) : cdab (v ^^^ w) = cdab v ^^^ cdab w := by
  rw [← be32_bytes v, ← be32_bytes w, be32_xor]
  simp only [cdab_be32, be32_xor]

theorem dcba_xor (v w : Word) : dcba (v ^^^ w) = dcba v ^^^ dcba w := by
  simp only [dcba_eq_badc_cdab, cdab_xor, badc_xor]

/-- Settles O26, from what each permutation does to the four bytes of a word. -/
theorem bytePermutationsOfAWord : Obligations.BytePermutationsOfAWord := by
  unfold Obligations.BytePermutationsOfAWord
  refine ⟨fun a b c d => ⟨badc_be32 a b c d, cdab_be32 a b c d, dcba_be32 a b c d⟩, fun w => ?_, ?_⟩
  · exact ⟨badc_badc w, cdab_cdab w, dcba_dcba w, dcba_eq_badc_cdab w, dcba_eq_cdab_badc w⟩
  · decide

/-! ## The mixing network, the byte-lane steps and the diffusion layers -/

/-- The closed form of `MIX` (rule R76). -/
theorem mix_eq (t : Block) :
    mix t = ⟨t.w0 ^^^ t.w1 ^^^ t.w2, t.w0 ^^^ t.w2 ^^^ t.w3, t.w0 ^^^ t.w1 ^^^ t.w3,
      t.w1 ^^^ t.w2 ^^^ t.w3⟩ := by
  simp only [mix, BitVec.xor_assoc, BitVec.xor_comm, word_xor_left_comm, word_xor_cancel_left]

theorem mix_mix (t : Block) : mix (mix t) = t := by
  simp only [mix_eq, BitVec.xor_assoc, BitVec.xor_comm, word_xor_left_comm, word_xor_cancel_left,
    BitVec.xor_self, BitVec.xor_zero]

theorem mix_xor (t u : Block) : mix (t.xor u) = (mix t).xor (mix u) := by
  simp only [mix_eq, Block.xor, BitVec.xor_assoc, word_xor_left_comm]

theorem blA_blA (t : Block) : blA (blA t) = t := by
  simp only [blA, badc_badc, cdab_cdab, dcba_dcba]

theorem blB_blB (t : Block) : blB (blB t) = t := by
  simp only [blB, badc_badc, cdab_cdab, dcba_dcba]

theorem blA_xor (t u : Block) : blA (t.xor u) = (blA t).xor (blA u) := by
  simp only [blA, Block.xor, badc_xor, cdab_xor, dcba_xor]

theorem blB_xor (t u : Block) : blB (t.xor u) = (blB t).xor (blB u) := by
  simp only [blB, Block.xor, badc_xor, cdab_xor, dcba_xor]

theorem pA_pA (t : Block) : pA (pA t) = t := by
  rw [pA, pA, mix_mix, blA_blA, mix_mix]

theorem pB_pB (t : Block) : pB (pB t) = t := by
  rw [pB, pB, mix_mix, blB_blB, mix_mix]

theorem pA_xor (t u : Block) : pA (t.xor u) = (pA t).xor (pA u) := by
  simp only [pA, mix_xor, blA_xor]

theorem pB_xor (t u : Block) : pB (t.xor u) = (pB t).xor (pB u) := by
  simp only [pB, mix_xor, blB_xor]

/-- Settles O27: a diffusion layer is a byte-lane step between two `MIX`, all three linear involutions. -/
theorem diffusionLayersAreInvolutions : Obligations.DiffusionLayersAreInvolutions := by
  unfold Obligations.DiffusionLayersAreInvolutions
  refine ⟨fun t => ⟨rfl, rfl⟩, fun t => ⟨pA_pA t, pB_pB t⟩, fun t u => ⟨pA_xor t u, pB_xor t u⟩, ?_⟩
  decide

end Sys2Proof.Machine
end

section
/-! The output transformation (`spec/41_round_engine.md` rule R88): its bytes, and the four words they
pack into. -/

namespace Sys2Proof.Machine

/-- The plain S-boxes in the order `X1, X2, S1, S2` on the bytes of a word, most significant first. -/
def outSubstitute (tb : Tables) (u : Word) : Word :=
  be32 (look tb.x1 (byte3 u)) (look tb.x2 (byte2 u)) (look tb.s1 (byte1 u)) (look tb.s2 (byte0 u))

/-- Each output word is the substituted word XORed with the word of the second key group. -/
theorem load_outTransform_word (tb : Tables) (t k1 k2 : Block) (i : Fin 4) :
    (load (outTransform tb t k1 k2)).word i.val =
      outSubstitute tb ((t.xor k1).word i.val) ^^^ k2.word i.val := by
  rw [← be32_bytes (k2.word i.val), outSubstitute, be32_xor]
  match i with
  | 0 | 1 | 2 | 3 => rfl

/-- The corner case of rule R88, read off the entries 0 of the printed tables. -/
theorem outSubstitute_zero : outSubstitute romTables 0#32 = 0x523063E2 := by
  decide +kernel

/-- Settles O31: the bytes by the output word they belong to, the corner case from the substitution of the
zero word. -/
theorem outputTransformationBytes : Obligations.OutputTransformationBytes := by
  unfold Obligations.OutputTransformationBytes
  refine ⟨fun tb t k1 k2 i => ?_, fun i => ?_, by decide +kernel⟩
  · match i with
    | 0 | 1 | 2 | 3 => exact ⟨rfl, rfl, rfl, rfl⟩
  · have hzero : (⟨0, 0, 0, 0⟩ : Block).word i.val = 0 := Block.word_zero i.val
    rw [load_outTransform_word, Block.word_xor, hzero, BitVec.xor_self, outSubstitute_zero]
    exact BitVec.xor_zero

end Sys2Proof.Machine
end

section
/-! The 128-bit rotation (`spec/42_key_scheduler.md` rule R96): the number a block stands for, the rotation
as the library's rotation of that number, and the bits of a rotated word. -/

namespace Sys2Proof.Machine

/-! ## A block and its number -/

theorem block128_blockOf128 (v : BitVec 128) : block128 (blockOf128 v) = v := by
  have hupper : v.extractLsb' 96 32 ++ v.extractLsb' 64 32 = v.extractLsb' 64 64 :=
    BitVec.extractLsb'_append_extractLsb'_eq_extractLsb' rfl
  have hrest : v.extractLsb' 64 64 ++ v.extractLsb' 32 32 = v.extractLsb' 32 96 :=
    BitVec.extractLsb'_append_extractLsb'_eq_extractLsb' rfl
  unfold block128 blockOf128
  rw [hupper, hrest]
  exact BitVec.extractLsb'_append_extractLsb' (w := 96) (len := 32)

/-- Word `i` of a block stands at bit `32 * (3 - i)` of its number. -/
theorem getLsbD_word (y : Block) (i k : Nat) (hi : i < 4) (hk : k < 32) :
    (y.word i).getLsbD k = (block128 y).getLsbD (32 * (3 - i) + k) := by
  unfold block128
  simp only [BitVec.getLsbD_append]
  match i, hi with
  | 0, _ | 1, _ | 2, _ | 3, _ => grind [Block.word]

/-! ## The rotation -/

theorem block128_ror128 (y : Block) (n : Nat) :
    block128 (ror128 y n) = (block128 y >>> n) ||| (block128 y <<< (128 - n)) :=
  block128_blockOf128 _

/-- A rotated block's bit at position `p` comes from position `(p + n) mod 128`. -/
theorem getLsbD_block128_ror128 (y : Block) (n p : Nat) (hn : n < 128) (hp : p < 128) :
    (block128 (ror128 y n)).getLsbD p = (block128 y).getLsbD ((p + n) % 128) := by
  have hrotate : block128 (ror128 y n) = (block128 y).rotateRight n := by
    rw [block128_ror128, BitVec.rotateRight_def, Nat.mod_eq_of_lt hn]
  rw [hrotate, BitVec.getLsbD_rotateRight, Nat.mod_eq_of_lt hn]
  by_cases hwrap : p < 128 - n
  · have hpos : (p + n) % 128 = n + p := by omega
    simp [hwrap, hpos]
  · have hpos : (p + n) % 128 = p - (128 - n) := by omega
    simp [hwrap, hpos, hp]

/-- The rotation in words (rule R96): a bit of the result stays in the word `qw` places up or crosses into
its neighbour. -/
theorem ror128_word (y : Block) (qw r i : Nat) (hi : i < 4) (hqw : qw < 4) (hr1 : 1 ≤ r) (hr31 : r ≤ 31) :
    (ror128 y (32 * qw + r)).word i =
      (y.word ((i + 4 - qw) % 4) >>> r) ||| (y.word ((i + 3 - qw) % 4) <<< (32 - r)) := by
  refine BitVec.eq_of_getLsbD_eq fun k hk => ?_
  rw [getLsbD_word _ _ _ hi hk, getLsbD_block128_ror128 _ _ _ (by omega) (by omega), BitVec.getLsbD_or,
    BitVec.getLsbD_ushiftRight, BitVec.getLsbD_shiftLeft]
  by_cases hcross : r + k < 32
  · have hpos : (32 * (3 - i) + k + (32 * qw + r)) % 128 = 32 * (3 - (i + 4 - qw) % 4) + (r + k) := by omega
    rw [hpos, ← getLsbD_word _ _ _ (by omega) hcross]
    simp [show k < 32 - r by omega]
  · have hpos : (32 * (3 - i) + k + (32 * qw + r)) % 128 =
        32 * (3 - (i + 3 - qw) % 4) + (k - (32 - r)) := by omega
    rw [hpos, ← getLsbD_word _ _ _ (by omega) (by omega), BitVec.getLsbD_of_ge _ (r + k) (by omega)]
    simp [hk, show ¬ k < 32 - r by omega]

/-- Settles O36: the number is the rotation's definition, the words follow bit by bit, and the examples are
computed. -/
theorem rotationOf128BitsInWords : Obligations.RotationOf128BitsInWords := by
  unfold Obligations.RotationOf128BitsInWords
  refine ⟨fun y n _ _ => block128_ror128 y n, fun y qw r i hqw hr1 hr31 => ?_, by decide, by decide,
    by decide⟩
  exact ror128_word y qw r i.val i.isLt hqw hr1 hr31

end Sys2Proof.Machine
end

section
/-! The encryption schedule group by group (`spec/42_key_scheduler.md` rules R97 to R99). -/

namespace Sys2Proof.Machine

theorem keyVector_eq (w : Vector Block 4) (n : Nat) (h : n < 4) : keyVector w n = w[n] := by
  simp [keyVector, h]

/-- The five rotation amounts in the order of rule R98. -/
theorem rotAmount_eq (n : Nat) (h : n < 5) : rotAmount n = [19, 31, 67, 97, 109].getD n 0 := by
  match n, h with
  | 0, _ | 1, _ | 2, _ | 3, _ | 4, _ => rfl

/-- Word `i` of group `g` stands in the schedule, and its index says which group and word it is. -/
theorem scheduleIndex_split (k : KeySize) (g i : Nat) (hg : g ≤ k.rounds) (hi : i < 4) :
    4 * g + i < k.rkWords ∧ (4 * g + i) / 4 = g ∧ (4 * g + i) % 4 = i := by
  unfold KeySize.rkWords
  omega

/-- A word of a group, with the vectors and the rotation of rule R98; the five rotations serve the groups
below 20. -/
theorem encGroup_word (w : Vector Block 4) (g i : Nat) (h : g < 20) :
    (encGroup w g).word i =
      (w[g % 4]).word i ^^^
        (ror128 (w[(g + 1) % 4]) ([19, 31, 67, 97, 109].getD (g / 4) 0)).word i := by
  rw [encGroup, gsrk, Block.word_xor, keyVector_eq _ _ (by omega), keyVector_eq _ _ (by omega),
    rotAmount_eq _ (by omega)]

/-- Settles O39: a word below the schedule's length is its group's word, any other is the old one. -/
theorem encryptionScheduleGroups : Obligations.EncryptionScheduleGroups := by
  unfold Obligations.EncryptionScheduleGroups
  intro w k old _
  refine ⟨fun g i hg => ?_, fun i hlo hhi => ?_, by cases k <;> rfl⟩
  · obtain ⟨hin, hgroup, hword⟩ := scheduleIndex_split k g i.val (Nat.lt_succ_iff.mp hg) i.isLt
    have hstored : 4 * g + i.val < 68 := hin.trans_le (rkWords_le k)
    rw [rkWord_encKeys _ _ _ _ hstored, if_pos hin, hgroup, hword, encGroup_word _ _ _ (by omega)]
  · rw [rkWord_encKeys _ _ _ _ hhi, if_neg (by omega)]

end Sys2Proof.Machine
end

section
/-! The diffusion of a block (`spec/41_round_engine.md` rules R86 and R87): `LMIX` by bytes, the stages of
`P_A` it commutes with, and `DIFF` as an involution. -/

namespace Sys2Proof.Machine

/-! ## The lane multipliers -/

theorem toNat_append_byte {n : Nat} (x : BitVec n) (b : Byte) : (x ++ b).toNat = x.toNat * 256 + b.toNat := by
  rw [BitVec.toNat_append, ← Nat.shiftLeft_add_eq_or_of_lt b.isLt, Nat.shiftLeft_eq]

theorem toNat_be32 (a b c d : Byte) :
    (be32 a b c d).toNat = ((a.toNat * 256 + b.toNat) * 256 + c.toNat) * 256 + d.toNat := by
  simp only [be32, toNat_append_byte]

/-- A byte times 0 or 1 does not overflow. -/
theorem toNat_byte_mul (m b : Byte) (h : m.toNat ≤ 1) : (m * b).toNat = m.toNat * b.toNat := by
  have hle : m.toNat * b.toNat ≤ 1 * b.toNat := Nat.mul_le_mul_right _ h
  rw [BitVec.toNat_mul, Nat.mod_eq_of_lt (by omega)]

/-- A multiplier whose bytes are 0 or 1 copies a byte into the lanes that hold 1. -/
theorem be32_mul_zext32 (m3 m2 m1 m0 b : Byte) (h3 : m3.toNat ≤ 1) (h2 : m2.toNat ≤ 1) (h1 : m1.toNat ≤ 1)
    (h0 : m0.toNat ≤ 1) :
    be32 m3 m2 m1 m0 * zext32 b = be32 (m3 * b) (m2 * b) (m1 * b) (m0 * b) := by
  have hproduct : (be32 m3 m2 m1 m0).toNat * b.toNat = (be32 (m3 * b) (m2 * b) (m1 * b) (m0 * b)).toNat := by
    simp only [toNat_be32, toNat_byte_mul, h3, h2, h1, h0]
    ring
  have hzext : (zext32 b).toNat = b.toNat := BitVec.toNat_setWidth_of_le (by decide)
  refine BitVec.eq_of_toNat_eq ?_
  rw [BitVec.toNat_mul, hzext, hproduct, Nat.mod_eq_of_lt (BitVec.isLt _)]

/-! ## `LMIX` -/

@[simp] theorem byte3_be32 (a b c d : Byte) : byte3 (be32 a b c d) = a := by
  unfold byte3 be32
  ext k hk
  grind

@[simp] theorem byte2_be32 (a b c d : Byte) : byte2 (be32 a b c d) = b := by
  unfold byte2 be32
  ext k hk
  grind

@[simp] theorem byte1_be32 (a b c d : Byte) : byte1 (be32 a b c d) = c := by
  unfold byte1 be32
  ext k hk
  grind

@[simp] theorem byte0_be32 (a b c d : Byte) : byte0 (be32 a b c d) = d := by
  unfold byte0 be32
  ext k hk
  grind

/-- `LMIX` replaces each byte by the XOR of the other three (rule R86). -/
theorem lmix_be32 (a b c d : Byte) :
    lmix (be32 a b c d) = be32 (b ^^^ c ^^^ d) (a ^^^ c ^^^ d) (a ^^^ b ^^^ d) (a ^^^ b ^^^ c) := by
  change be32 0 1 1 1 * zext32 _ ^^^ be32 1 0 1 1 * zext32 _ ^^^ be32 1 1 0 1 * zext32 _ ^^^
    be32 1 1 1 0 * zext32 _ = _
  simp [be32_mul_zext32, be32_xor]

theorem byte_xor_left_comm (x y z : Byte) : x ^^^ (y ^^^ z) = y ^^^ (x ^^^ z) := by
  rw [← BitVec.xor_assoc, BitVec.xor_comm x y, BitVec.xor_assoc]

theorem byte_xor_cancel_left (x y : Byte) : x ^^^ (x ^^^ y) = y := by
  rw [← BitVec.xor_assoc, BitVec.xor_self, BitVec.zero_xor]

theorem lmix_lmix (w : Word) : lmix (lmix w) = w := by
  rw [← be32_bytes w, lmix_be32, lmix_be32]
  simp only [BitVec.xor_assoc, BitVec.xor_comm, byte_xor_left_comm, byte_xor_cancel_left, BitVec.xor_self,
    BitVec.zero_xor]

theorem lmix_xor (v w : Word) : lmix (v ^^^ w) = lmix v ^^^ lmix w := by
  rw [← be32_bytes v, ← be32_bytes w, be32_xor]
  simp only [lmix_be32, be32_xor, BitVec.xor_assoc, byte_xor_left_comm]

/-! ## `LMIX` and the stages of `P_A`: each byte permutation moves the bytes it treats alike -/

theorem lmix_badc (w : Word) : lmix (badc w) = badc (lmix w) := by
  rw [← be32_bytes w]
  simp only [badc_be32, lmix_be32, BitVec.xor_comm, byte_xor_left_comm]

theorem lmix_cdab (w : Word) : lmix (cdab w) = cdab (lmix w) := by
  rw [← be32_bytes w]
  simp only [cdab_be32, lmix_be32, BitVec.xor_assoc, BitVec.xor_comm, byte_xor_left_comm]

theorem lmix_dcba (w : Word) : lmix (dcba w) = dcba (lmix w) := by
  rw [dcba_eq_badc_cdab, lmix_badc, lmix_cdab, ← dcba_eq_badc_cdab]

theorem map_lmix_map_lmix (b : Block) : (b.map lmix).map lmix = b := by
  simp only [Block.map, lmix_lmix]

theorem mix_map_lmix (b : Block) : mix (b.map lmix) = (mix b).map lmix := by
  simp only [mix_eq, Block.map, lmix_xor]

theorem blA_map_lmix (b : Block) : blA (b.map lmix) = (blA b).map lmix := by
  simp only [blA, Block.map, lmix_badc, lmix_cdab, lmix_dcba]

theorem pA_map_lmix (b : Block) : pA (b.map lmix) = (pA b).map lmix := by
  rw [pA, pA, mix_map_lmix, blA_map_lmix, mix_map_lmix]

/-- `DIFF` is an involution: it is two involutions that commute (rule R87). -/
theorem diff_diff (b : Block) : diff (diff b) = b := by
  rw [diff, diff, ← pA_map_lmix, map_lmix_map_lmix, pA_pA]

end Sys2Proof.Machine
end

section
/-! The decryption schedule (`spec/42_key_scheduler.md` rule R100): the converging loop in closed form, the
derivation on groups, and the stored schedule. -/

namespace Sys2Proof.Machine

/-! ## The derivation on a list of groups -/

/-- Reading a list of groups after one of them was replaced. -/
theorem groupAt_set (d : List Block) (n g : Nat) (b : Block) (h : n < d.length) :
    groupAt (d.set n b) g = if g = n then b else groupAt d g := by
  unfold groupAt
  rw [List.getD_eq_getElem?_getD, List.getElem?_set, List.getD_eq_getElem?_getD]
  split <;> simp_all [eq_comm]

/-- The loop reverses and diffuses the groups from `a` to `z` and keeps the others, when its bound lets the
indices meet. -/
theorem groupAt_decLoop (fuel a z : Nat) (d : List Block) (g : Nat) (hz : z < d.length)
    (hfuel : z < a + 2 * fuel) :
    groupAt (decLoop fuel a z d) g =
      if a ≤ g ∧ g ≤ z then diff (groupAt d (a + z - g)) else groupAt d g := by
  induction fuel generalizing a z d with
  | zero => rw [decLoop, if_neg (by omega)]
  | succ fuel ih =>
    rw [decLoop]
    rcases Nat.lt_trichotomy a z with hlt | rfl | hgt
    · rw [if_pos hlt, ih _ _ _ (by simp only [List.length_set]; omega) (by omega)]
      have hset : ∀ n, groupAt ((d.set a (diff (groupAt d z))).set z (diff (groupAt d a))) n =
          if n = z then diff (groupAt d a) else if n = a then diff (groupAt d z) else groupAt d n := fun n => by
        rw [groupAt_set _ _ _ _ (by simpa using hz), groupAt_set _ _ _ _ (by omega)]
      have hmirror : a + 1 + (z - 1) - g = a + z - g := by omega
      rw [hmirror, hset, hset]
      grind
    · rw [if_neg (by omega), if_pos rfl, groupAt_set _ _ _ _ hz]
      grind
    · rw [if_neg (by omega), if_neg (by omega), if_neg (by omega)]

/-- Group `g` of the derived schedule comes from the mirrored one; only the outer two are not diffused. -/
theorem groupAt_decGroups (d : List Block) (n g : Nat) (hd : d.length = n + 1) (hg : g ≤ n) :
    groupAt (decGroups d) g = if g = 0 ∨ g = n then groupAt d (n - g) else diff (groupAt d (n - g)) := by
  have hswap : ∀ i, groupAt ((d.set 0 (groupAt d n)).set n (groupAt d 0)) i =
      if i = n then groupAt d 0 else if i = 0 then groupAt d n else groupAt d i := fun i => by
    rw [groupAt_set _ _ _ _ (by simp [hd]), groupAt_set _ _ _ _ (by omega)]
  have hlast : d.length - 1 = n := by omega
  rw [decGroups, groupAt_decLoop _ _ _ _ _ (by simp only [List.length_set]; omega) (by omega), hlast, hswap,
    hswap]
  grind

/-! ## The derivation on the stored schedule -/

theorem groupAt_scheduleGroups (rk : Vector Word 68) (n g : Nat) (h : g < n) :
    groupAt (scheduleGroups rk n) g = rkGroup rk (4 * g) := by
  simp [groupAt, scheduleGroups, h]

/-- A word of a schedule is a word of its group. -/
theorem rkWord_eq_rkGroup_word (rk : Vector Word 68) (i : Nat) :
    rkWord rk i = (rkGroup rk (4 * (i / 4))).word (i % 4) := by
  rw [rkGroup_word _ _ _ (by omega), Nat.div_add_mod]

/-- The group of a schedule that a block gives word by word. -/
theorem rkGroup_eq_of_words {rk : Vector Word 68} {j : Nat} {b : Block}
    (h : ∀ i, i < 4 → rkWord rk (j + i) = b.word i) : rkGroup rk j = b :=
  Block.ext_words (h 0 (by decide)) (h 1 (by decide)) (h 2 (by decide)) (h 3 (by decide))

/-- Rule R100 in closed form, for every group. -/
theorem rkGroup_decKeys (erk old : Vector Word 68) (k : KeySize) (g : Nat) (hg : g ≤ k.rounds) :
    rkGroup (decKeys erk k old) (4 * g) =
      if g = 0 ∨ g = k.rounds then rkGroup erk (4 * (k.rounds - g))
      else diff (rkGroup erk (4 * (k.rounds - g))) := by
  have hlength : (scheduleGroups erk (k.rounds + 1)).length = k.rounds + 1 := by simp [scheduleGroups]
  rw [← groupAt_scheduleGroups erk (k.rounds + 1) (k.rounds - g) (by omega),
    ← groupAt_decGroups _ _ _ hlength hg]
  refine rkGroup_eq_of_words fun i hi => ?_
  obtain ⟨hin, hgroup, hword⟩ := scheduleIndex_split k g i hg hi
  rw [rkWord_decKeys _ _ _ _ (hin.trans_le (rkWords_le k)), if_pos hin, hgroup, hword]

/-- Deriving twice mirrors twice, and `DIFF` undoes itself. -/
theorem rkGroup_decKeys_decKeys (erk old old' : Vector Word 68) (k : KeySize) (g : Nat) (hg : g ≤ k.rounds) :
    rkGroup (decKeys (decKeys erk k old) k old') (4 * g) = rkGroup erk (4 * g) := by
  have hmirror : k.rounds - (k.rounds - g) = g := by omega
  rw [rkGroup_decKeys _ _ _ _ hg, rkGroup_decKeys _ _ _ _ (Nat.sub_le _ _), hmirror]
  by_cases houter : g = 0 ∨ g = k.rounds
  · rw [if_pos houter, if_pos (by omega)]
  · rw [if_neg houter, if_neg (by omega), diff_diff]

/-- Settles O40, from the closed form of each group. -/
theorem decryptionScheduleClosedForm : Obligations.DecryptionScheduleClosedForm := by
  unfold Obligations.DecryptionScheduleClosedForm
  intro erk old k _
  refine ⟨?_, ?_, fun g hg1 hg => ?_, fun i hlo hhi => ?_, fun old' i hi => ?_⟩
  · exact (rkGroup_decKeys erk old k 0 (Nat.zero_le _)).trans (if_pos (.inl rfl))
  · rw [rkGroup_decKeys _ _ _ _ le_rfl, if_pos (.inr rfl), Nat.sub_self]
  · rw [rkGroup_decKeys _ _ _ _ hg.le, if_neg (by omega)]
  · rw [rkWord_decKeys _ _ _ _ hhi, if_neg (by omega)]
  · have hgroup : i / 4 ≤ k.rounds := by unfold KeySize.rkWords at hi; omega
    rw [rkWord_eq_rkGroup_word, rkWord_eq_rkGroup_word erk, rkGroup_decKeys_decKeys _ _ _ _ _ hgroup]

end Sys2Proof.Machine
end

section
/-! What each command answers (`spec/43_commands.md` rules R103 to R111): the lazy setups as one update of
the state each, the staged key bytes, and the commands assembled from them. -/

namespace Sys2Proof.Machine

/-! ## The lazy key setups as state updates -/

/-- `EncSetup()` where it is needed writes the schedule, its valid bit and the working registers, and
discards the decryption schedule only when it runs (rules R107, R108). -/
theorem ensureEnc_eq (s : State) :
    ensureEnc s = { s with
      decValid := (s.decValid && s.encValid), erk := (ensureEnc s).erk, encValid := true,
      work := (ensureEnc s).work } := by
  rcases ensureEnc_cases s with ⟨hvalid, he⟩ | ⟨habsent, he⟩
  · rw [he, hvalid, Bool.and_true, ← hvalid]
  · rw [he, habsent, Bool.and_false]
    rfl

/-- Which words the encryption key setup computes and which it keeps (rules R20, R98, R99). -/
theorem encSetup_erk_words (s : State) :
    (∀ i, i < s.ksize.rkWords → rkWord (encSetup s).erk i = contextEncWord s i) ∧
    (∀ i, s.ksize.rkWords ≤ i → i < 68 → rkWord (encSetup s).erk i = rkWord s.erk i) := by
  rw [encSetup_erk]
  refine ⟨fun i hi => ?_, fun i hlo hhi => ?_⟩
  · rw [rkWord_encKeys _ _ _ _ (hi.trans_le (rkWords_le _)), if_pos hi, contextEncWord]
  · rw [rkWord_encKeys _ _ _ _ hhi, if_neg hlo.not_gt]

/-- A present encryption schedule is kept, an absent one computed from the context's key. -/
theorem ensureEnc_erk_words (s : State) :
    (s.encValid = true → (ensureEnc s).erk = s.erk) ∧
    (s.encValid = false →
      (∀ i, i < s.ksize.rkWords → rkWord (ensureEnc s).erk i = contextEncWord s i) ∧
      (∀ i, s.ksize.rkWords ≤ i → i < 68 → rkWord (ensureEnc s).erk i = rkWord s.erk i)) := by
  refine ⟨fun hvalid => by rw [ensureEnc_of_valid hvalid], fun habsent => ?_⟩
  rw [ensureEnc_of_absent habsent]
  exact encSetup_erk_words s

/-- The decryption schedule is derived from the encryption schedule as `DecSetup()` finds or leaves it. -/
theorem decSetup_drk (s : State) : (decSetup s).drk = decKeys (ensureEnc s).erk s.ksize s.drk := by
  rw [decSetup, deriveDec_drk, ensureEnc_eq s]

/-- `DecSetup()` writes both schedules, their valid bits, the working registers and the count of free
values (rule R107). -/
theorem decSetup_eq (s : State) :
    decSetup s = { s with
      erk := (ensureEnc s).erk, encValid := true, drk := (decSetup s).drk, decValid := true,
      work := (decSetup s).work, fresh := (decSetup s).fresh } := by
  rw [decSetup, ensureEnc_eq s]
  rfl

/-- `DecSetup()` where it is needed; the encryption schedule is present afterwards if it was, or if the
setup ran (rule R109). -/
theorem ensureDec_eq (s : State) :
    ensureDec s = { s with
      erk := (ensureDec s).erk, encValid := (s.encValid || !s.decValid), drk := (ensureDec s).drk,
      decValid := true, work := (ensureDec s).work, fresh := (ensureDec s).fresh } := by
  rcases ensureDec_cases s with ⟨hvalid, he⟩ | ⟨habsent, he⟩
  · rw [he, hvalid, Bool.not_true, Bool.or_false, ← hvalid]
  · rw [he, habsent, Bool.not_false, Bool.or_true]
    exact decSetup_eq s

/-- A present decryption schedule is kept, with whatever encryption schedule stands beside it; an absent
one is derived. -/
theorem ensureDec_schedules (s : State) :
    (s.decValid = true → (ensureDec s).drk = s.drk ∧ (ensureDec s).erk = s.erk) ∧
    (s.decValid = false → (ensureDec s).drk = decKeys (ensureDec s).erk s.ksize s.drk ∧
      (ensureDec s).erk = (ensureEnc s).erk) := by
  refine ⟨fun hvalid => by simp [ensureDec_of_valid hvalid], fun habsent => ?_⟩
  rw [ensureDec_of_absent habsent]
  exact ⟨decSetup_drk s, rfl⟩

/-- The block operation after the lazy encryption setup, as one update of the state (rule R108). -/
theorem cryptBlock_ensureEnc (rk : Vector Word 68) (s : State) :
    cryptBlock rk (ensureEnc s) = { s with
      decValid := (s.decValid && s.encValid), erk := (ensureEnc s).erk, encValid := true,
      work := (cryptBlock rk (ensureEnc s)).work,
      dout := load (crypt s.tables s.din.bytes rk s.ksize.rounds).out } := by
  rw [ensureEnc_eq s]
  rfl

/-- The block operation after the lazy decryption setup, as one update of the state (rule R109). -/
theorem cryptBlock_ensureDec (rk : Vector Word 68) (s : State) :
    cryptBlock rk (ensureDec s) = { s with
      erk := (ensureDec s).erk, encValid := (s.encValid || !s.decValid), drk := (ensureDec s).drk,
      decValid := true, work := (cryptBlock rk (ensureDec s)).work, fresh := (ensureDec s).fresh,
      dout := load (crypt s.tables s.din.bytes rk s.ksize.rounds).out } := by
  rw [ensureDec_eq s]
  rfl

/-! ## The staged key -/

/-- Byte `n` of `KEYBUF` as a shift of its word, most significant byte first (rule R26). -/
theorem keybufByte_eq (keybuf : Vector Word 8) (n : Nat) (h : n / 4 < 8) :
    keybufByte keybuf n = (keybuf[n / 4] >>> (8 * (3 - n % 4))).setWidth 8 := by
  have hword : keybuf[n / 4]?.getD 0 = keybuf[n / 4] := by simp [h]
  unfold keybufByte
  rw [hword]
  have hpos : n % 4 < 4 := Nat.mod_lt _ (by decide)
  generalize n % 4 = p at hpos
  match p, hpos with
  | 0, _ | 1, _ | 2, _ | 3, _ => rfl

/-! ## A command's answer from what it needs -/

theorem execSetKeySize_of_ofSize {size : Nat} {k : KeySize} (h : KeySize.ofSize size = some k) (s : State) :
    execSetKeySize size s = succeed (setContextSize k s) := by
  rw [execSetKeySize, h]

theorem execSetKeySize_of_rejected {size : Nat} (h : KeySize.ofSize size = none) (s : State) :
    execSetKeySize size s = raise .invalidKey (failedSize s) := by
  rw [execSetKeySize, h]

theorem execRkRead_of_absent {sched : Sched} {s : State} (h : schedValid s sched = false) (idx : Nat) :
    execRkRead sched idx s = raise .invalidKey s := if_pos h

theorem execRkRead_of_beyond {sched : Sched} {s : State} {idx : Nat} (h : schedValid s sched = true)
    (hidx : s.ksize.rkWords ≤ idx) : execRkRead sched idx s = raise .outOfRange s := by
  rw [execRkRead, if_neg (by simp [h]), if_pos hidx]

theorem execRkRead_of_within {sched : Sched} {s : State} {idx : Nat} (h : schedValid s sched = true)
    (hidx : idx < s.ksize.rkWords) :
    execRkRead sched idx s = succeed { s with result := rkWord (schedWords s sched) idx } := by
  rw [execRkRead, if_neg (by simp [h]), if_neg hidx.not_ge]

/-! ## The statements -/

/-- Settles O41: the sizes accepted are those of `KeySize.ofSize`, and a rejected one has the failure effect
of the policy. -/
theorem setKeySizeAcceptsOrRejects : Obligations.SetKeySizeAcceptsOrRejects := by
  unfold Obligations.SetKeySizeAcceptsOrRejects
  refine fun s => ⟨fun size k nr hsize => ?_, fun size h128 h192 h256 => ?_⟩
  · have haccepted : KeySize.ofSize size = some k ∧ k.bits = size ∧ k.rounds = nr := by
      rcases hsize with ⟨rfl, rfl, rfl⟩ | ⟨rfl, rfl, rfl⟩ | ⟨rfl, rfl, rfl⟩ <;> decide
    obtain ⟨hofSize, hbits, hrounds⟩ := haccepted
    exact ⟨execSetKeySize_of_ofSize hofSize s, hbits, hrounds⟩
  · have hnone : KeySize.ofSize size = none := by
      simp only [KeySize.ofSize, h128, h192, h256, if_false]
    have hfail : exec (.setKeySize size) s = raise .invalidKey (failedSize s) :=
      execSetKeySize_of_rejected hnone s
    refine ⟨fun hkeep => ?_, fun hclear => ?_⟩
    · rw [hfail, failedSize_of_keep hkeep]
      rfl
    · rw [hfail, failedSize_of_clear hclear]
      rfl

/-- Settles O42: the size as a number, by its four values. -/
theorem getKeySizeReturnsTheSize : Obligations.GetKeySizeReturnsTheSize := by
  unfold Obligations.GetKeySizeReturnsTheSize
  intro s
  have hrun : exec .getKeySize s =
      .next { s with result := BitVec.ofNat 32 s.ksize.bits, err := 0 } := rfl
  rw [hrun]
  cases s.ksize <;> rfl

/-- Settles O43, with the bytes of the stored key read off `KEYBUF` one by one. -/
theorem setKeyStoresTheKey : Obligations.SetKeyStoresTheKey := by
  unfold Obligations.SetKeyStoresTheKey
  intro s len
  rcases execSetKey_cases len s with ⟨hbad, he⟩ | ⟨hset, hlen, he⟩
  · exact ⟨fun hset hlen => absurd hbad (not_or.mpr ⟨hset, hlen.not_gt⟩), fun _ => he⟩
  · refine ⟨fun _ _ => ⟨_, he, fun i => ?_⟩, fun hbad => absurd hbad (not_or.mpr ⟨hset, hlen.not_gt⟩)⟩
    rw [keyBytes, getElem_tabulate, keybufByte_eq _ _ (by omega)]

/-- Settles O44: the setup is `encSetup`, whose words are known. -/
theorem setupEncBuildsTheEncryptionSchedule : Obligations.SetupEncBuildsTheEncryptionSchedule := by
  unfold Obligations.SetupEncBuildsTheEncryptionSchedule
  intro s
  rcases execSetupEnc_cases s with ⟨hbad, he⟩ | ⟨hset, hkey, he⟩
  · exact ⟨fun hset hkey => absurd hbad (by simp [hset, hkey]), fun _ => he⟩
  · exact ⟨fun _ _ => ⟨_, _, he, encSetup_erk_words s⟩, fun hbad => absurd hbad (by simp [hset, hkey])⟩

/-- Settles O45: the encryption schedule is the one `ensureEnc` finds or computes, and the decryption
schedule is derived from it. -/
theorem setupDecDerivesTheDecryptionSchedule : Obligations.SetupDecDerivesTheDecryptionSchedule := by
  unfold Obligations.SetupDecDerivesTheDecryptionSchedule
  intro s
  rcases execSetupDec_cases s with ⟨hbad, he⟩ | ⟨hset, hsource, he⟩
  · exact ⟨fun hset hsource => absurd hbad (by simp_all), fun _ => he⟩
  · have hrun := he.trans (congrArg succeed (decSetup_eq s))
    obtain ⟨hkept, hcomputed⟩ := ensureEnc_erk_words s
    exact ⟨fun _ _ => ⟨_, _, _, _, hrun, hkept, hcomputed, decSetup_drk s⟩,
      fun hbad => absurd hbad (by simp_all)⟩

/-- Settles O46: the block operation reads the schedule `ensureEnc` finds or computes, and `ensureEnc`
leaves what the operation reads besides. -/
theorem encryptProducesTheBlock : Obligations.EncryptProducesTheBlock := by
  unfold Obligations.EncryptProducesTheBlock
  intro s
  rcases execEncrypt_cases s with ⟨hbad, he⟩ | ⟨hset, hsource, he⟩
  · exact ⟨fun hset hsource => absurd hbad (by simp_all), fun _ => he⟩
  · have hrun := he.trans (congrArg succeed (cryptBlock_ensureEnc _ s))
    exact ⟨fun _ _ => ⟨_, _, hrun, ensureEnc_erk_words s⟩, fun hbad => absurd hbad (by simp_all)⟩

/-- Settles O47: the same block operation after `ensureDec`. -/
theorem decryptProducesTheBlock : Obligations.DecryptProducesTheBlock := by
  unfold Obligations.DecryptProducesTheBlock
  intro s
  rcases execDecrypt_cases s with ⟨hbad, he⟩ | ⟨hset, hsource, he⟩
  · exact ⟨fun hset hsource => absurd hbad (by simp_all), fun _ => he⟩
  · have hrun := he.trans (congrArg succeed (cryptBlock_ensureDec _ s))
    obtain ⟨hkept, hderived⟩ := ensureDec_schedules s
    refine ⟨fun _ _ => ⟨_, _, _, _, hrun, hkept, fun habsent => ?_⟩, fun hbad => absurd hbad (by simp_all)⟩
    obtain ⟨hdrk, herk⟩ := hderived habsent
    exact ⟨hdrk, herk ▸ ensureEnc_erk_words s⟩

/-- Settles O48: the entry is the definition, and the eight entries after reset are those of the printed
tables. -/
theorem tblReadReturnsTheEntry : Obligations.TblReadReturnsTheEntry := by
  unfold Obligations.TblReadReturnsTheEntry
  refine ⟨fun s idx => ⟨rfl, rfl, rfl, rfl, rfl, rfl, rfl, rfl⟩, fun sel => ?_⟩
  have hrun : exec (.tblRead sel 0) State.reset =
      .next { State.reset with result := tableEntry romTables sel 0, err := 0 } := rfl
  rw [hrun]
  cases sel <;> rfl

/-- Settles O49: presence first, then the index against the schedule's length. -/
theorem rkReadReturnsTheWord : Obligations.RkReadReturnsTheWord := by
  unfold Obligations.RkReadReturnsTheWord
  intro s idx
  exact ⟨fun hvalid hidx => execRkRead_of_within (sched := .erk) hvalid hidx,
    fun hvalid hidx => execRkRead_of_within (sched := .drk) hvalid hidx,
    fun habsent => execRkRead_of_absent (sched := .erk) habsent idx,
    fun habsent => execRkRead_of_absent (sched := .drk) habsent idx,
    fun hvalid hidx => execRkRead_of_beyond (sched := .erk) hvalid hidx,
    fun hvalid hidx => execRkRead_of_beyond (sched := .drk) hvalid hidx⟩

end Sys2Proof.Machine
end

section
/-! Illegal words (`spec/30_encoding.md` rule R49, `spec/60_exceptions.md` rule R119): a word meets none of
the four conditions exactly when it decodes, compared field by field once its opcode is known. -/

namespace Sys2Proof

/-- The opcode numbers that rule R49 does not reserve are those of the nine commands (rule R48). -/
theorem exists_instr_of_opcode {op : BitVec 8} (hne : op ≠ 0x00) (hlt : op.toNat < 0x0A) :
    ∃ i : Instr, op = i.opcode Opcodes.default := by
  have hsome : ∀ op : BitVec 8, op ≠ 0x00 → op.toNat < 0x0A →
      ∃ i ∈ [Instr.setKeySize 0, .getKeySize, .setKey 0, .setupEnc, .setupDec, .encrypt, .decrypt,
        .tblRead .s1 0, .rkRead .erk 0], op = i.opcode Opcodes.default := by decide
  obtain ⟨i, _, hi⟩ := hsome op hne hlt
  exact ⟨i, hi⟩

/-- A word that is not illegal has the opcode of a command. -/
theorem exists_opcode_of_legal {c : Word} (h : illegalWord c = false) :
    ∃ i : Instr, opField c = i.opcode Opcodes.default := by
  simp only [illegalWord, Bool.or_eq_false_iff, beq_eq_false_iff_ne, decide_eq_false_iff_not,
    Nat.not_le] at h
  obtain ⟨⟨⟨⟨⟨hne, hlt⟩, -⟩, -⟩, -⟩, -⟩ := h
  exact exists_instr_of_opcode hne hlt

/-- With a command's opcode a word is legal when `RSV` and the command's must-be-zero bits are 0
(rules R47, R49). -/
theorem legal_iff_of_opcode {c : Word} {i : Instr} (hop : opField c = i.opcode Opcodes.default) :
    illegalWord c = false ↔ rsvField c = 0 ∧ argField c &&& i.zeroBits = 0 := by
  cases i with
  | setKeySize | setKey =>
    simp [illegalWord, hop, Instr.opcode, Opcodes.default, Instr.zeroBits]
  | getKeySize | setupEnc | setupDec | encrypt | decrypt =>
    have hall : argField c &&& 65535#16 = argField c := BitVec.and_allOnes
    simp [illegalWord, hop, Instr.opcode, Opcodes.default, Instr.zeroBits, hall]
  | tblRead =>
    rw [Instr.zeroBits, and_tblReadZeroBits_eq_zero_iff]
    simp [illegalWord, hop, Instr.opcode, Opcodes.default]
  | rkRead =>
    rw [Instr.zeroBits, and_rkReadZeroBits_eq_zero_iff]
    simp [illegalWord, hop, Instr.opcode, Opcodes.default]

/-- The legal words are those that decode. -/
theorem legal_iff_decode {c : Word} : illegalWord c = false ↔ ∃ i, decode c = .ok i := by
  constructor
  · intro hlegal
    obtain ⟨i, hop⟩ := exists_opcode_of_legal hlegal
    obtain ⟨hrsv, hzero⟩ := (legal_iff_of_opcode hop).1 hlegal
    exact ⟨_, decode_eq_readOperands hrsv hop hzero⟩
  · rintro ⟨i, hdecode⟩
    obtain ⟨hrsv, hop, hzero⟩ := decodeWith_ok_fields hdecode
    exact (legal_iff_of_opcode hop).2 ⟨hrsv, hzero⟩

/-- The decoder refuses an illegal word. -/
theorem decode_error_of_illegal {c : Word} (h : illegalWord c = true) : ∃ e, decode c = .error e := by
  cases hdecode : decode c with
  | error e => exact ⟨e, rfl⟩
  | ok i => exact absurd (legal_iff_decode.2 ⟨i, hdecode⟩) (by simp [h])

end Sys2Proof

namespace Sys2Proof.Machine

theorem execute_of_ok {c : Word} {s : State} {i : Instr}
    (h : decodeWith s.cfg.host.opcodes c = .ok i) : execute c s = exec i s := by
  rw [execute, h]

theorem execute_of_error {c : Word} {s : State} {e : Illegal}
    (h : decodeWith s.cfg.host.opcodes c = .error e) : execute c s = raise .illegalCommand s := by
  rw [execute, h]

/-- Settles O7: `execute` follows the decoder, which with the opcode map of rule R48 refuses exactly the
illegal words. -/
theorem illegalWordsRaiseIllegalCommand : Obligations.IllegalWordsRaiseIllegalCommand := by
  unfold Obligations.IllegalWordsRaiseIllegalCommand
  refine fun c s => ⟨fun e he => execute_of_error he, fun i hi => execute_of_ok hi, fun hmap => ?_⟩
  have hdecoder := congrFun (decodeWith_of_default hmap) c
  refine ⟨fun hillegal => ?_, fun hlegal => ?_⟩
  · obtain ⟨e, he⟩ := decode_error_of_illegal hillegal
    exact execute_of_error (hdecoder.trans he)
  · obtain ⟨i, hi⟩ := legal_iff_decode.1 hlegal
    exact ⟨i, hi, execute_of_ok (hdecoder.trans hi)⟩

end Sys2Proof.Machine
end

section
/-! Which error a command ends with (`spec/60_exceptions.md` rules R115 to R118): `InvalidKey`,
`OutOfRange` or none, each with its cause. -/

namespace Sys2Proof.Machine

/-- The one cause of `OutOfRange`: an index at or beyond the length of a present schedule (rule R118). -/
def outOfRangeCause (i : Instr) (s : State) : Prop :=
  match i with
  | .rkRead sched idx => schedValid s sched = true ∧ s.ksize.rkWords ≤ idx
  | _ => False

/-- What a command that raises `InvalidKey` leaves besides the code: the context of a rejected size by
the policy, everything else as before (rules R103, R117). -/
def afterInvalidKey (i : Instr) (s : State) : State :=
  match i with
  | .setKeySize _ => failedSize s
  | _ => s

theorem invalidKeyCause_rkRead {sched : Sched} {idx : Nat} {s : State} :
    invalidKeyCause (.rkRead sched idx) s ↔ schedValid s sched = false := by
  cases sched <;> rfl

theorem outOfRangeCause_iff {i : Instr} {s : State} :
    outOfRangeCause i s ↔ ∃ sched idx, i = .rkRead sched idx ∧ schedValid s sched = true ∧
      4 * (s.ksize.rounds + 1) ≤ idx := by
  constructor
  · intro h
    cases i with
    | rkRead sched idx => exact ⟨sched, idx, rfl, h⟩
    | _ => exact h.elim
  · rintro ⟨sched, idx, rfl, h⟩
    exact h

/-- An absent schedule is reported before an index beyond its length (rules R111, R122). -/
theorem not_outOfRangeCause_of_invalidKeyCause {i : Instr} {s : State} (h : invalidKeyCause i s) :
    ¬ outOfRangeCause i s := by
  intro hrange
  cases i with
  | rkRead sched idx =>
    obtain ⟨hvalid, -⟩ := hrange
    exact Bool.false_ne_true ((invalidKeyCause_rkRead.1 h).symm.trans hvalid)
  | _ => exact hrange

/-- Every command ends in one of three ways: `InvalidKey` on its causes, `OutOfRange` on its cause, and
success without either (rule R115). -/
theorem exec_cases (i : Instr) (s : State) :
    (invalidKeyCause i s ∧ exec i s = raise .invalidKey (afterInvalidKey i s)) ∨
    (outOfRangeCause i s ∧ exec i s = raise .outOfRange s) ∨
    (¬ invalidKeyCause i s ∧ ¬ outOfRangeCause i s ∧ ∃ s', exec i s = succeed s') := by
  cases i with
  | setKeySize size =>
    rcases KeySize.ofSize_cases size with
      ⟨rfl, hsize⟩ | ⟨rfl, hsize⟩ | ⟨rfl, hsize⟩ | ⟨h128, h192, h256, hnone⟩
    case inr.inr.inr =>
      exact .inl ⟨⟨h128, h192, h256⟩, execSetKeySize_of_rejected hnone s⟩
    all_goals
      exact .inr (.inr ⟨by simp [invalidKeyCause], id, _, execSetKeySize_of_ofSize hsize s⟩)
  | getKeySize => exact .inr (.inr ⟨id, id, _, rfl⟩)
  | setKey len =>
    rcases execSetKey_cases len s with ⟨hcause, he⟩ | ⟨hset, hlen, he⟩
    · exact .inl ⟨hcause, he⟩
    · exact .inr (.inr ⟨not_or.2 ⟨hset, hlen.not_gt⟩, id, _, he⟩)
  | setupEnc =>
    rcases execSetupEnc_cases s with ⟨hcause, he⟩ | ⟨hset, hkey, he⟩
    · exact .inl ⟨hcause, he⟩
    · exact .inr (.inr ⟨by simp [invalidKeyCause, hset, hkey], id, _, he⟩)
  | setupDec =>
    rcases execSetupDec_cases s with ⟨hcause, he⟩ | ⟨hset, hsource, he⟩
    · exact .inl ⟨hcause, he⟩
    · exact .inr (.inr ⟨by simpa [invalidKeyCause, hset, or_iff_not_imp_left] using hsource, id, _, he⟩)
  | encrypt =>
    rcases execEncrypt_cases s with ⟨hcause, he⟩ | ⟨hset, hsource, he⟩
    · exact .inl ⟨hcause, he⟩
    · exact .inr (.inr ⟨by simpa [invalidKeyCause, hset, or_iff_not_imp_left] using hsource, id, _, he⟩)
  | decrypt =>
    rcases execDecrypt_cases s with ⟨hcause, he⟩ | ⟨hset, hsource, he⟩
    · exact .inl ⟨hcause, he⟩
    · exact .inr (.inr ⟨by simpa [invalidKeyCause, hset, or_iff_not_imp_left] using hsource, id, _, he⟩)
  | tblRead sel idx => exact .inr (.inr ⟨id, id, _, rfl⟩)
  | rkRead sched idx =>
    rcases execRkRead_cases sched idx s with ⟨habsent, he⟩ | ⟨hvalid, hidx, he⟩ | ⟨hvalid, hidx, he⟩
    · exact .inl ⟨invalidKeyCause_rkRead.2 habsent, he⟩
    · exact .inr (.inl ⟨⟨hvalid, hidx⟩, he⟩)
    · exact .inr (.inr ⟨by simp [invalidKeyCause_rkRead, hvalid], fun h => h.2.not_gt hidx, _, he⟩)

theorem raise_err {e : ErrKind} {s t : State} (h : raise e s = .next t) : t.err = e.code := by
  rw [raise_next h]

theorem succeed_err {s t : State} (h : succeed s = .next t) : t.err = 0 := by
  rw [succeed_next h]

/-- The code a command writes, with the causes that hold and that do not (rules R116 to R118). -/
theorem exec_err_cases {i : Instr} {s t : State} (h : exec i s = .next t) :
    (invalidKeyCause i s ∧ ¬ outOfRangeCause i s ∧ t.err = 1) ∨
    (¬ invalidKeyCause i s ∧ outOfRangeCause i s ∧ t.err = 3) ∨
    (¬ invalidKeyCause i s ∧ ¬ outOfRangeCause i s ∧ t.err = 0) := by
  rcases exec_cases i s with ⟨hkey, he⟩ | ⟨hrange, he⟩ | ⟨hkey, hrange, s', he⟩
  · exact .inl ⟨hkey, not_outOfRangeCause_of_invalidKeyCause hkey, raise_err (he.symm.trans h)⟩
  · exact .inr (.inl ⟨fun hkey => not_outOfRangeCause_of_invalidKeyCause hkey hrange, hrange,
      raise_err (he.symm.trans h)⟩)
  · exact .inr (.inr ⟨hkey, hrange, succeed_err (he.symm.trans h)⟩)

theorem exec_err_eq_one_iff {i : Instr} {s t : State} (h : exec i s = .next t) :
    t.err = 1 ↔ invalidKeyCause i s := by
  rcases exec_err_cases h with ⟨hkey, -, herr⟩ | ⟨hkey, -, herr⟩ | ⟨hkey, -, herr⟩ <;> simp [hkey, herr]

theorem exec_err_eq_three_iff {i : Instr} {s t : State} (h : exec i s = .next t) :
    t.err = 3 ↔ outOfRangeCause i s := by
  rcases exec_err_cases h with ⟨-, hrange, herr⟩ | ⟨-, hrange, herr⟩ | ⟨-, hrange, herr⟩ <;>
    simp [hrange, herr]

/-- The effect of `InvalidKey` (rule R117). -/
theorem exec_of_invalidKeyCause {i : Instr} {s t : State} (h : exec i s = .next t)
    (hcause : invalidKeyCause i s) : t = { afterInvalidKey i s with err := 1 } := by
  rcases exec_cases i s with ⟨-, he⟩ | ⟨hrange, -⟩ | ⟨hno, -⟩
  · exact raise_next (he.symm.trans h)
  · exact absurd hrange (not_outOfRangeCause_of_invalidKeyCause hcause)
  · exact absurd hcause hno

theorem afterInvalidKey_of_clear {i : Instr} {s : State}
    (h : (∃ size, i = .setKeySize size) ∧ s.cfg.ksizeFailPolicy = .clear) :
    afterInvalidKey i s = setContextSize .unset s := by
  obtain ⟨⟨size, rfl⟩, hclear⟩ := h
  exact failedSize_of_clear hclear

theorem afterInvalidKey_of_not_clear {i : Instr} {s : State}
    (h : ¬ ((∃ size, i = .setKeySize size) ∧ s.cfg.ksizeFailPolicy = .clear)) :
    afterInvalidKey i s = s := by
  cases i with
  | setKeySize size =>
    rcases failedSize_cases s with ⟨-, hkept⟩ | ⟨hclear, -⟩
    · exact hkept
    · exact absurd ⟨⟨size, rfl⟩, hclear⟩ h
  | _ => rfl

/-- Settles O50: the code by `exec_err_eq_one_iff`, the effect by the policy. -/
theorem invalidKeyHasExactlyTheListedCauses : Obligations.InvalidKeyHasExactlyTheListedCauses := by
  unfold Obligations.InvalidKeyHasExactlyTheListedCauses
  refine fun i s t h => ⟨exec_err_eq_one_iff h, fun hcause => ?_⟩
  rw [exec_of_invalidKeyCause h hcause]
  refine ⟨fun hclear => ?_, fun hkept => ?_⟩
  · rw [afterInvalidKey_of_clear hclear]
    rfl
  · rw [afterInvalidKey_of_not_clear hkept]

/-- Settles O51: `RK_READ` alone has a cause of `OutOfRange`. -/
theorem outOfRangeHasExactlyOneCause : Obligations.OutOfRangeHasExactlyOneCause := by
  unfold Obligations.OutOfRangeHasExactlyOneCause
  exact fun i s t h => (exec_err_eq_three_iff h).trans outOfRangeCause_iff

end Sys2Proof.Machine
end

section
/-! The state after reset (`spec/70_reset_and_hazards.md` rule R130): its tables, its cleared key arrays,
`CMD` and `STATUS` as the host reads them, and its context state. -/

namespace Sys2Proof.Machine

/-- The tables after reset are held as the printed constants and are those the construction gives. -/
theorem reset_tables : State.reset.tables = tableBuild Config.default :=
  (tableBuild_eq_romTables rfl rfl rfl).symm

@[simp] theorem reset_masterKey_getElem (i : Nat) (h : i < 32) : State.reset.masterKey[i] = 0 :=
  getElem_tabulate 32 _ i h

@[simp] theorem reset_keybuf_getElem (k : Nat) (h : k < 8) : State.reset.keybuf[k] = 0 :=
  getElem_tabulate 8 _ k h

/-- `CMD`, which stands at slot 0 of the default window, holds nothing. -/
theorem hostRead_cmd_reset : hostRead 0 State.reset = 0 :=
  hostRead_cmd State.reset

/-- Every field of `STATUS` is 0 after reset: no error, no key, no schedule, no key size. -/
theorem statusWord_reset : statusWord State.reset = 0 :=
  (statusWord_of_default rfl).trans (by decide)

/-- Without a key size the context state is `U`, whatever the valid bits are (rule R114). -/
theorem ctxState_of_unset {s : State} (h : s.ksize = .unset) : ctxState s = .unset :=
  if_pos h

/-- Settles O12: the items with a rule of their own by that rule's lemma, each other field as `State.reset`
gives it. -/
theorem resetHoldsTheStatedValues : Obligations.ResetHoldsTheStatedValues := by
  unfold Obligations.ResetHoldsTheStatedValues
  have hksize : State.reset.ksize = .unset := rfl
  refine ⟨reset_tables, hksize, ?bits, ?rounds, ?mkValid, fun i => reset_masterKey_getElem i i.isLt,
    ?encValid, ?decValid, hostRead_cmd_reset, ?din, ?dout, fun k => reset_keybuf_getElem k k.isLt,
    ?result, ?err, statusWord_reset, ctxState_of_unset hksize⟩
  all_goals rfl

end Sys2Proof.Machine
end

section
/-! Commands and their words (`spec/30_encoding.md` rules R46 to R53): the operand field of a command holds
its operands and zeros, and reading the operands back is the inverse of writing them. -/

namespace Sys2Proof

/-! ## The operand field -/

@[simp] theorem argField_commandWord (op : BitVec 8) (arg : BitVec 16) :
    argField (commandWord op arg) = arg := by
  unfold argField commandWord
  ext k hk
  grind

theorem TableSel.ofCode_code (sel : TableSel) : TableSel.ofCode sel.code = sel := by
  cases sel <;> rfl

theorem TableSel.code_ofCode (k : BitVec 3) : (TableSel.ofCode k).code = k := by
  revert k
  decide

theorem Sched.ofCode_code (sched : Sched) : Sched.ofCode sched.code = sched := by
  cases sched <;> rfl

theorem Sched.code_ofCode (b : BitVec 1) : (Sched.ofCode b).code = b := by
  revert b
  decide

/-- The four parts of the operand field of `TBL_READ` and `RK_READ`, read back (rule R47). -/
theorem extract_tblRead_argBits (sel : TableSel) (idx : Byte) :
    (Instr.tblRead sel idx).argBits.extractLsb' 11 5 = 0 ∧
    (Instr.tblRead sel idx).argBits.extractLsb' 8 3 = sel.code ∧
    (Instr.tblRead sel idx).argBits.extractLsb' 0 8 = idx := by
  unfold Instr.argBits
  refine ⟨?_, ?_, ?_⟩ <;> ext k hk <;> grind

theorem extract_rkRead_argBits (sched : Sched) (idx : Nat) :
    (Instr.rkRead sched idx).argBits.extractLsb' 9 7 = 0 ∧
    (Instr.rkRead sched idx).argBits.extractLsb' 7 1 = 0 ∧
    (Instr.rkRead sched idx).argBits.extractLsb' 8 1 = sched.code ∧
    (Instr.rkRead sched idx).argBits.extractLsb' 0 7 = BitVec.ofNat 7 idx := by
  unfold Instr.argBits
  refine ⟨?_, ?_, ?_, ?_⟩ <;> ext k hk <;> grind

/-- A command holds 0 in its must-be-zero bits. -/
theorem Instr.argBits_and_zeroBits (i : Instr) : i.argBits &&& i.zeroBits = 0 := by
  cases i with
  | setKeySize | setKey => exact BitVec.and_zero
  | getKeySize | setupEnc | setupDec | encrypt | decrypt => exact BitVec.zero_and
  | tblRead sel idx =>
    obtain ⟨hzero, -, -⟩ := extract_tblRead_argBits sel idx
    exact and_tblReadZeroBits_eq_zero_iff.2 hzero
  | rkRead sched idx =>
    obtain ⟨hhigh, hmid, -, -⟩ := extract_rkRead_argBits sched idx
    exact and_rkReadZeroBits_eq_zero_iff.2 ⟨hhigh, hmid⟩

/-- Reading the operands of a well-formed command out of its own operand field. -/
theorem Instr.readOperands_argBits {i : Instr} (h : i.wellFormed = true) :
    i.readOperands i.argBits = i := by
  cases i with
  | setKeySize n | setKey n =>
    have hfits : n < 65536 := of_decide_eq_true h
    simp [Instr.readOperands, Instr.argBits, Nat.mod_eq_of_lt hfits]
  | getKeySize | setupEnc | setupDec | encrypt | decrypt => rfl
  | tblRead sel idx =>
    obtain ⟨-, hsel, hidx⟩ := extract_tblRead_argBits sel idx
    rw [Instr.readOperands, hsel, hidx, TableSel.ofCode_code]
  | rkRead sched idx =>
    obtain ⟨-, -, hsched, hidx⟩ := extract_rkRead_argBits sched idx
    have hfits : idx < 2 ^ 7 := of_decide_eq_true h
    rw [Instr.readOperands, hsched, hidx, Sched.ofCode_code, BitVec.toNat_ofNat, Nat.mod_eq_of_lt hfits]

/-- Writing back the operands that were read gives the operand field, when its must-be-zero bits are 0. -/
theorem Instr.argBits_readOperands {i : Instr} {arg : BitVec 16} (h : arg &&& i.zeroBits = 0) :
    (i.readOperands arg).argBits = arg := by
  cases i with
  | setKeySize | setKey => simp [Instr.readOperands, Instr.argBits]
  | getKeySize | setupEnc | setupDec | encrypt | decrypt =>
    exact (h.symm.trans (BitVec.and_allOnes (x := arg)))
  | tblRead =>
    have hzero : arg.extractLsb' 11 5 = 0 := and_tblReadZeroBits_eq_zero_iff.1 h
    have hupper : arg.extractLsb' 11 5 ++ arg.extractLsb' 8 3 = arg.extractLsb' 8 8 :=
      BitVec.extractLsb'_append_extractLsb'_eq_extractLsb' rfl
    rw [Instr.readOperands, Instr.argBits, TableSel.code_ofCode, ← hzero, hupper]
    exact BitVec.extractLsb'_append_extractLsb' (w := 8) (len := 8)
  | rkRead =>
    obtain ⟨hhigh, hmid⟩ := and_rkReadZeroBits_eq_zero_iff.1 h
    have hupper : arg.extractLsb' 9 7 ++ arg.extractLsb' 8 1 = arg.extractLsb' 8 8 :=
      BitVec.extractLsb'_append_extractLsb'_eq_extractLsb' rfl
    have hnext : arg.extractLsb' 8 8 ++ arg.extractLsb' 7 1 = arg.extractLsb' 7 9 :=
      BitVec.extractLsb'_append_extractLsb'_eq_extractLsb' rfl
    rw [Instr.readOperands, Instr.argBits, Sched.code_ofCode, BitVec.ofNat_toNat, BitVec.setWidth_eq,
      ← hhigh, hupper, ← hmid, hnext]
    exact BitVec.extractLsb'_append_extractLsb' (w := 9) (len := 7)

/-- Operands that stand in a field fit it. -/
theorem Instr.wellFormed_readOperands (i : Instr) (arg : BitVec 16) :
    (i.readOperands arg).wellFormed = true := by
  cases i with
  | setKeySize | setKey => exact decide_eq_true arg.isLt
  | rkRead => exact decide_eq_true (arg.extractLsb' 0 7).isLt
  | _ => rfl

/-! ## Decoding -/

/-- A word of a command's opcode, with `RSV = 0` and the must-be-zero bits clear, decodes to the command
with the operands in `ARG`, where no two commands share an opcode number. -/
theorem decodeWith_eq_readOperands {o : Opcodes} {c : Word} {i : Instr} (hdistinct : o.all.Nodup)
    (hrsv : rsvField c = 0) (hop : opField c = i.opcode o) (hzero : argField c &&& i.zeroBits = 0) :
    decodeWith o c = .ok (i.readOperands (argField c)) := by
  simp only [Opcodes.all, List.nodup_cons, List.mem_cons, List.not_mem_nil, or_false, not_or] at hdistinct
  cases i with
  | tblRead sel idx =>
    have hbits := and_tblReadZeroBits_eq_zero_iff.1 hzero
    simp_all [decodeWith, decodeTblRead, Instr.opcode, Instr.readOperands, eq_comm]
  | rkRead sched idx =>
    have hbits := and_rkReadZeroBits_eq_zero_iff.1 hzero
    simp_all [decodeWith, decodeRkRead, Instr.opcode, Instr.readOperands, eq_comm]
  | setKeySize | setKey =>
    simp_all [decodeWith, Instr.opcode, Instr.readOperands, eq_comm]
  | getKeySize | setupEnc | setupDec | encrypt | decrypt =>
    have harg : argField c = 0 := (BitVec.and_allOnes (x := argField c)).symm.trans hzero
    simp_all [decodeWith, decodePlain, Instr.opcode, Instr.readOperands, eq_comm]

/-- A word that decodes holds the operands of its command (rules R47, R53), whatever the opcode numbers. -/
theorem decodeWith_ok_readOperands {o : Opcodes} {c : Word} {i : Instr} (h : decodeWith o c = .ok i) :
    i.readOperands (argField c) = i := by
  have hplain : ∀ j : Instr, j.readOperands (argField c) = j → decodePlain j (argField c) = .ok i →
      i.readOperands (argField c) = i := by
    intro j hj hdecode
    rw [(decodePlain_ok hdecode).1, hj]
  simp only [decodeWith] at h
  split_ifs at h with _ hsize hgetSize hkey henc hdec hencrypt hdecrypt htbl hrk
  · cases h
    rfl
  · exact hplain _ rfl h
  · cases h
    rfl
  · exact hplain _ rfl h
  · exact hplain _ rfl h
  · exact hplain _ rfl h
  · exact hplain _ rfl h
  · unfold decodeTblRead at h
    split at h <;> cases h
    rfl
  · unfold decodeRkRead at h
    split at h <;> cases h
    rfl

/-- Decoding undoes encoding, where no two commands share an opcode number. -/
theorem decodeWith_encodeWith {o : Opcodes} {i : Instr} (hdistinct : o.all.Nodup)
    (hwf : i.wellFormed = true) : decodeWith o (encodeWith o i) = .ok i := by
  have harg : argField (encodeWith o i) = i.argBits := argField_commandWord _ _
  have hdecode : decodeWith o (encodeWith o i) = .ok (i.readOperands (argField (encodeWith o i))) :=
    decodeWith_eq_readOperands hdistinct (Laws.commandWord_rsv _ _) (Laws.commandWord_op _ _)
      (harg ▸ i.argBits_and_zeroBits)
  rw [hdecode, harg, Instr.readOperands_argBits hwf]

/-- A word that decodes is its command's word: its three fields are. -/
theorem encodeWith_of_decodeWith {o : Opcodes} {c : Word} {i : Instr} (h : decodeWith o c = .ok i) :
    encodeWith o i = c ∧ i.wellFormed = true := by
  obtain ⟨hrsv, hop, hzero⟩ := decodeWith_ok_fields h
  have hread := decodeWith_ok_readOperands h
  have harg : i.argBits = argField c := hread ▸ Instr.argBits_readOperands hzero
  refine ⟨word_eq_iff_fields.2 ⟨?_, ?_, ?_⟩, hread ▸ i.wellFormed_readOperands _⟩
  · exact (Laws.commandWord_op _ _).trans hop.symm
  · exact (Laws.commandWord_rsv _ _).trans hrsv.symm
  · exact (argField_commandWord _ _).trans harg

/-- The opcode numbers of rule R48 are distinct. -/
theorem opcodes_default_nodup : Opcodes.default.all.Nodup := by decide

/-! ## The statements -/

/-- Settles O1: the fields of the encoding select the command, and its operands are read back. -/
theorem decodeEncodeRoundTrip : Obligations.DecodeEncodeRoundTrip := by
  unfold Obligations.DecodeEncodeRoundTrip
  exact ⟨fun o i hdistinct hwf => decodeWith_encodeWith hdistinct hwf,
    fun i hwf => decodeWith_encodeWith opcodes_default_nodup hwf⟩

/-- Settles O2, field by field. -/
theorem decodedWordsReencode : Obligations.DecodedWordsReencode := by
  unfold Obligations.DecodedWordsReencode
  exact ⟨fun o c i h => encodeWith_of_decodeWith h, fun c i h => encodeWith_of_decodeWith h⟩

/-- Settles O3: a word is legal exactly when it decodes. -/
theorem decoderRefusesExactlyIllegalWords : Obligations.DecoderRefusesExactlyIllegalWords := by
  unfold Obligations.DecoderRefusesExactlyIllegalWords
  refine fun c => ⟨fun ⟨e, he⟩ => ?_, decode_error_of_illegal⟩
  cases hlegal : illegalWord c with
  | true => rfl
  | false =>
    obtain ⟨i, hi⟩ := legal_iff_decode.1 hlegal
    exact absurd (hi.symm.trans he) (by simp)

/-- Settles O5: each sample word is closed, so the decoder computes its answer. -/
theorem sampleWordsDecode : Obligations.SampleWordsDecode := by
  unfold Obligations.SampleWordsDecode
  decide

end Sys2Proof
end

section
/-! Blocks as sixteen bytes (`spec/20_memory.md` rule R39), `MIX` and the byte matrix of `DIFF`
(`spec/41_round_engine.md` rules R76 and R87). -/

namespace Sys2Proof.Machine

/-! ## Packing and unpacking -/

theorem load_bytes (x : Block) : load x.bytes = x :=
  Block.ext_words (be32_bytes x.w0) (be32_bytes x.w1) (be32_bytes x.w2) (be32_bytes x.w3)

theorem bytes_load (v : Vector Byte 16) : (load v).bytes = v := by
  ext1 i hi
  simp only [load, Block.ofBytes, Block.bytes, byte3_be32, byte2_be32, byte1_be32, byte0_be32]
  interval_cases i <;> rfl

/-- Settles O24: a byte position is a shift, and packing is unpacking backwards. -/
theorem blockBytesAreBigEndian : Obligations.BlockBytesAreBigEndian := by
  unfold Obligations.BlockBytesAreBigEndian
  refine ⟨fun x k m => ?_, load_bytes, bytes_load⟩
  match k with
  | 0 | 1 | 2 | 3 =>
    match m with
    | 0 | 1 | 2 | 3 => rfl

/-! ## `MIX` -/

/-- Settles O25, from the closed form. -/
theorem mixClosedForm : Obligations.MixClosedForm := by
  unfold Obligations.MixClosedForm
  exact ⟨fun a b c d => mix_eq ⟨a, b, c, d⟩, mix_mix, mix_xor⟩

/-! ## `DIFF` on bytes -/

/-- A block is given by its sixteen bytes. -/
theorem exists_block_be32 (x : Block) : ∃ a0 a1 a2 a3 a4 a5 a6 a7 a8 a9 a10 a11 a12 a13 a14 a15 : Byte,
    x = ⟨be32 a0 a1 a2 a3, be32 a4 a5 a6 a7, be32 a8 a9 a10 a11, be32 a12 a13 a14 a15⟩ :=
  ⟨_, _, _, _, _, _, _, _, _, _, _, _, _, _, _, _, (load_bytes x).symm⟩

theorem map_lmix_xor (x y : Block) : (x.xor y).map lmix = (x.map lmix).xor (y.map lmix) := by
  simp only [Block.map, Block.xor, lmix_xor]

theorem diff_xor (x y : Block) : diff (x.xor y) = (diff x).xor (diff y) := by
  rw [diff, map_lmix_xor, pA_xor, diff, diff]

/-- The XOR of a word's bytes, in all four bytes. -/
def parityWord (w : Word) : Word := w ^^^ badc w ^^^ cdab w ^^^ dcba w

theorem parityWord_xor (v w : Word) : parityWord (v ^^^ w) = parityWord v ^^^ parityWord w := by
  simp only [parityWord, badc_xor, cdab_xor, dcba_xor]
  ac_rfl

/-- Moving the bytes of a word keeps their XOR. -/
theorem parityWord_permuted (w : Word) : parityWord (badc w) = parityWord w ∧
    parityWord (cdab w) = parityWord w ∧ parityWord (dcba w) = parityWord w := by
  rw [← be32_bytes w]
  simp only [parityWord, badc_be32, cdab_be32, dcba_be32, be32_xor]
  refine ⟨?_, ?_, ?_⟩ <;> ac_rfl

/-- `LMIX` adds the XOR of all four bytes to each byte (rule R86). -/
theorem lmix_eq_xor_parityWord (w : Word) : lmix w = w ^^^ parityWord w := by
  have hsum : lmix w = badc w ^^^ cdab w ^^^ dcba w := by
    rw [← be32_bytes w, lmix_be32]
    simp only [badc_be32, cdab_be32, dcba_be32, be32_xor]
    ac_rfl
  rw [hsum, parityWord, BitVec.xor_assoc w, BitVec.xor_assoc w, word_xor_cancel_left]

/-- `P_A` moves no byte parity: its two `MIX` undo each other on them. -/
theorem map_parityWord_pA (x : Block) : (pA x).map parityWord = x.map parityWord := by
  have hmix : ∀ y : Block, (mix y).map parityWord = mix (y.map parityWord) := fun y => by
    simp only [mix_eq, Block.map, parityWord_xor]
  have hlane : ∀ y : Block, (blA y).map parityWord = y.map parityWord := fun y => by
    simp only [blA, Block.map, parityWord_permuted]
  rw [pA, hmix, hlane, hmix, mix_mix]

/-- `DIFF` is `P_A` with the byte parity of each word added to its bytes (rule R87). -/
theorem diff_eq_xor_parityWord (x : Block) : diff x = (pA x).xor (x.map parityWord) := by
  rw [diff, pA_map_lmix, ← map_parityWord_pA]
  simp only [Block.map, Block.xor, lmix_eq_xor_parityWord]

/-- `DIFF` in words: each output word takes one arrangement of the word at its own place and two of each
other word (rule R87). -/
theorem diff_eq (x : Block) :
    diff x =
      ⟨dcba x.w0 ^^^ (x.w1 ^^^ cdab x.w1) ^^^ (x.w2 ^^^ badc x.w2) ^^^ (badc x.w3 ^^^ cdab x.w3),
       (x.w0 ^^^ cdab x.w0) ^^^ badc x.w1 ^^^ (x.w2 ^^^ dcba x.w2) ^^^ (cdab x.w3 ^^^ dcba x.w3),
       (x.w0 ^^^ badc x.w0) ^^^ (x.w1 ^^^ dcba x.w1) ^^^ cdab x.w2 ^^^ (badc x.w3 ^^^ dcba x.w3),
       (badc x.w0 ^^^ cdab x.w0) ^^^ (cdab x.w1 ^^^ dcba x.w1) ^^^ (badc x.w2 ^^^ dcba x.w2) ^^^ x.w3⟩ := by
  simp only [diff_eq_xor_parityWord, pA, mix_eq, blA, Block.map, Block.xor, badc_xor, cdab_xor, dcba_xor,
    parityWord, BitVec.xor_assoc, BitVec.xor_comm, word_xor_left_comm, word_xor_cancel_left,
    BitVec.xor_self, BitVec.zero_xor]

/-- Settles O29: the bytes of the four words, and `DIFF` as two commuting linear involutions. -/
theorem diffusionByteMatrix : Obligations.DiffusionByteMatrix := by
  unfold Obligations.DiffusionByteMatrix
  refine ⟨fun b => ?_, diff_diff, diff_xor⟩
  obtain ⟨a0, a1, a2, a3, a4, a5, a6, a7, a8, a9, a10, a11, a12, a13, a14, a15, rfl⟩ := exists_block_be32 b
  simp only [diff_eq, badc_be32, cdab_be32, dcba_be32, be32_xor, Block.bytes, byte3_be32, byte2_be32,
    byte1_be32, byte0_be32, Vector.getElem_mk, List.getElem_toArray, List.getElem_cons_zero,
    List.getElem_cons_succ, BitVec.xor_assoc, BitVec.xor_comm, byte_xor_left_comm, and_self]

end Sys2Proof.Machine
end

section
/-! Fused tables and half-rounds (`spec/40_table_builder.md` rule R66, `spec/41_round_engine.md` rules R73 to
R75 and R84 to R87): a fused table is an S-box byte in three lanes, so a substitution stage is the plain
S-boxes followed by `LMIX`, and a half-round of either type the plain S-boxes followed by `DIFF`. -/

namespace Sys2Proof.Machine

/-! ## Fused tables -/

theorem look_fusedTable (m : Word) (s : Vector Byte 256) (i : Byte) :
    look (fusedTable m s) i = m * zext32 (look s i) := by
  rw [fusedTable, look_tabulate, BitVec.ofNat_toNat, BitVec.setWidth_eq]

/-- The four multipliers of rule R66 by lane. -/
theorem lane_multipliers (b : Byte) :
    mulTS1 * zext32 b = be32 0 b b b ∧ mulTS2 * zext32 b = be32 b 0 b b ∧
    mulTX1 * zext32 b = be32 b b 0 b ∧ mulTX2 * zext32 b = be32 b b b 0 := by
  change be32 0 1 1 1 * _ = _ ∧ be32 1 0 1 1 * _ = _ ∧ be32 1 1 0 1 * _ = _ ∧ be32 1 1 1 0 * _ = _
  simp [be32_mul_zext32]

/-- The four fused tables are made from the S-boxes of the same build (rule R66). -/
structure HasFusedTables (tb : Tables) : Prop where
  ts1 : tb.ts1 = fusedTable mulTS1 tb.s1
  ts2 : tb.ts2 = fusedTable mulTS2 tb.s2
  tx1 : tb.tx1 = fusedTable mulTX1 tb.x1
  tx2 : tb.tx2 = fusedTable mulTX2 tb.x2

theorem hasFusedTables_tableBuild (cfg : Config) : HasFusedTables (tableBuild cfg) := by
  constructor <;> simp only [tableBuild]

theorem hasFusedTables_romTables : HasFusedTables romTables := ⟨rfl, rfl, rfl, rfl⟩

/-- Settles O22: a fused entry is a product with a lane multiplier. -/
theorem fusedEntriesReplicateTheByte : Obligations.FusedEntriesReplicateTheByte := by
  unfold Obligations.FusedEntriesReplicateTheByte
  intro cfg i
  obtain ⟨hts1, hts2, htx1, htx2⟩ := hasFusedTables_tableBuild cfg
  simp only [hts1, hts2, htx1, htx2, look_fusedTable, lane_multipliers, and_self]

/-! ## The plain S-boxes of a half-round -/

/-- The plain S-boxes in the order `S1, S2, X1, X2` on the bytes of a word, most significant first: those of
a Type A half-round (rule R87). -/
def plainA (tb : Tables) (w : Word) : Word :=
  be32 (look tb.s1 (byte3 w)) (look tb.s2 (byte2 w)) (look tb.x1 (byte1 w)) (look tb.x2 (byte0 w))

/-- The plain S-boxes of either type; those of Type B are the output transformation's (rules R87, R88). -/
def plain (tb : Tables) : HalfRound → Word → Word
  | .typeA => plainA tb
  | .typeB => outSubstitute tb

theorem plainA_cdab (tb : Tables) (w : Word) : plainA tb (cdab w) = cdab (outSubstitute tb w) := by
  rw [← be32_bytes w, cdab_be32]
  simp only [plainA, outSubstitute, cdab_be32, byte3_be32, byte2_be32, byte1_be32, byte0_be32]

/-- `SL_A` is the plain S-boxes, then `LMIX` (rules R73, R86). -/
theorem slA_eq {tb : Tables} (h : HasFusedTables tb) (w : Word) : slA tb w = lmix (plainA tb w) := by
  simp only [slA, lmix, plainA, h.ts1, h.ts2, h.tx1, h.tx2, look_fusedTable, byte3_be32, byte2_be32,
    byte1_be32, byte0_be32]

/-- Type B reads the tables of Type A with the halves of the word exchanged (rules R73, R74). -/
theorem slB_eq_slA_cdab (tb : Tables) (w : Word) : slB tb w = slA tb (cdab w) := by
  rw [← be32_bytes w, cdab_be32]
  simp only [slB, slA, byte3_be32, byte2_be32, byte1_be32, byte0_be32]
  rw [BitVec.xor_assoc, BitVec.xor_comm, ← BitVec.xor_assoc]

theorem slB_eq {tb : Tables} (h : HasFusedTables tb) (w : Word) :
    slB tb w = cdab (lmix (outSubstitute tb w)) := by
  rw [slB_eq_slA_cdab, slA_eq h, plainA_cdab, lmix_cdab]

/-- Settles O28, from the two stages as plain S-boxes and `LMIX`. -/
theorem substitutionOfAWord : Obligations.SubstitutionOfAWord := by
  unfold Obligations.SubstitutionOfAWord
  refine ⟨slB_eq_slA_cdab, fun w => ⟨⟨?_, ?_⟩, ?_⟩⟩
  · rw [slA_eq hasFusedTables_romTables, plainA, lmix_be32]
  · exact slA_eq hasFusedTables_romTables w
  · rw [slB_eq hasFusedTables_romTables, outSubstitute, lmix_be32, cdab_be32]

/-! ## The half-rounds -/

/-- `P_B` on exchanged halves is `P_A`. -/
theorem pB_map_cdab (x : Block) : pB (x.map cdab) = pA x := by
  have hmix : mix (x.map cdab) = (mix x).map cdab := by
    simp only [mix_eq, Block.map, cdab_xor]
  have hlane : ∀ y : Block, blB (y.map cdab) = blA y := fun y => by
    simp only [blB, blA, Block.map, cdab_cdab, dcba_eq_badc_cdab]
  rw [pB, hmix, hlane, pA]

/-- A half-round of either type is key add, the plain S-boxes of its type and `DIFF` (rule R87). -/
theorem halfRound_eq {tb : Tables} (h : HasFusedTables tb) (ty : HalfRound) (t k : Block) :
    halfRound tb ty t k = diff ((t.xor k).map (plain tb ty)) := by
  cases ty with
  | typeA =>
    have hstage : (t.xor k).map (slA tb) = ((t.xor k).map (plainA tb)).map lmix := by
      simp only [Block.map, slA_eq h]
    exact congrArg pA hstage
  | typeB =>
    have hstage : (t.xor k).map (slB tb) = (((t.xor k).map (outSubstitute tb)).map lmix).map cdab := by
      simp only [Block.map, slB_eq h]
    exact (congrArg pB hstage).trans (pB_map_cdab _)

/-- Settles O30: `P_B` takes up the exchange of halves that sets Type B's tables apart. -/
theorem halfRoundsAreSubstituteThenDiffuse : Obligations.HalfRoundsAreSubstituteThenDiffuse := by
  unfold Obligations.HalfRoundsAreSubstituteThenDiffuse
  exact fun t k => ⟨halfRound_eq hasFusedTables_romTables .typeA t k,
    halfRound_eq hasFusedTables_romTables .typeB t k⟩

end Sys2Proof.Machine
end

section
/-! The block operation (`spec/41_round_engine.md` rules R88 and R89) as a sequence of half-rounds, the
schedule words it reads, and the round trip under the derived schedule (`spec/42_key_scheduler.md` rule
R101). -/

namespace Sys2Proof.Machine

/-! ## The sequence of half-rounds -/

/-- The type of half-round `n`, counted from 0: Type A first, then alternating (rule R89). -/
def layerType (n : Nat) : HalfRound := if n % 2 = 0 then .typeA else .typeB

/-- The state after `n` half-rounds from `t`, each with the next group of the schedule (rule R89). -/
def roundState (tb : Tables) (rk : Vector Word 68) (t : Block) : Nat → Block
  | 0 => t
  | n + 1 => halfRound tb (layerType n) (roundState tb rk t n) (rkGroup rk (4 * n))

theorem layerType_even (m : Nat) : layerType (2 * m) = .typeA := if_pos (by omega)

theorem layerType_odd (m : Nat) : layerType (2 * m + 1) = .typeB := if_neg (by omega)

/-- The main loop runs its half-rounds in pairs; `4 * n` is the index of group `n`. -/
theorem cryptLoop_roundState (tb : Tables) (rk : Vector Word 68) (t : Block) (n m : Nat) :
    cryptLoop tb rk n (roundState tb rk t (2 * m)) (4 * (2 * m)) =
      (roundState tb rk t (2 * (m + n)), 4 * (2 * (m + n))) := by
  induction n generalizing m with
  | zero => rfl
  | succ n ih =>
    have hpair : fB tb (fA tb (roundState tb rk t (2 * m)) (rkGroup rk (4 * (2 * m))))
        (rkGroup rk (4 * (2 * m) + 4)) = roundState tb rk t (2 * (m + 1)) := by
      rw [Nat.mul_succ, roundState, roundState, layerType_even, layerType_odd]
      rfl
    have hcount : m + 1 + n = m + (n + 1) := by omega
    have hindex : 4 * (2 * m) + 8 = 4 * (2 * (m + 1)) := by omega
    rw [cryptLoop, hpair, hindex, ih, hcount]

theorem cryptLoop_zero (tb : Tables) (rk : Vector Word 68) (t : Block) (n : Nat) :
    cryptLoop tb rk n t 0 = (roundState tb rk t (2 * n), 4 * (2 * n)) := by
  have hloop := cryptLoop_roundState tb rk t n 0
  rwa [Nat.zero_add] at hloop

/-- The block operation for an even number of rounds: `r - 1` half-rounds, then the output transformation on
the last two groups (rule R89). -/
theorem crypt_eq (tb : Tables) (input : Vector Byte 16) (rk : Vector Word 68) (r : Nat)
    (heven : r % 2 = 0) (hpos : 0 < r) :
    crypt tb input rk r =
      { out := outTransform tb (roundState tb rk (load input) (r - 1)) (rkGroup rk (4 * (r - 1)))
          (rkGroup rk (4 * r))
        t := roundState tb rk (load input) (r - 1), j := 4 * (r + 1) } := by
  obtain ⟨m, rfl⟩ : ∃ m, r = 2 * m + 2 := ⟨r / 2 - 1, by omega⟩
  have hiterations : (2 * m + 2) / 2 - 1 = m := by omega
  have hlast : roundState tb rk (load input) (2 * m + 1) =
      fA tb (roundState tb rk (load input) (2 * m)) (rkGroup rk (4 * (2 * m))) := by
    rw [roundState, layerType_even]
    rfl
  rw [crypt, hiterations, cryptLoop_zero, Nat.add_succ_sub_one, hlast]
  rfl

/-- The numbers of rounds are even (rule R15). -/
theorem rounds_even_pos {k : KeySize} (h : k ≠ .unset) : k.rounds % 2 = 0 ∧ 0 < k.rounds := by
  cases k with
  | unset => exact absurd rfl h
  | k128 | k192 | k256 => decide

/-- The half-rounds as a fold over their numbers. -/
theorem roundState_eq_foldl (tb : Tables) (rk : Vector Word 68) (t : Block) (n : Nat) :
    (List.range n).foldl
      (fun t n => if n % 2 = 0 then fA tb t (rkGroup rk (4 * n)) else fB tb t (rkGroup rk (4 * n))) t =
    roundState tb rk t n := by
  induction n with
  | zero => rfl
  | succ n ih =>
    rw [List.range_succ, List.foldl_append, ih, List.foldl_cons, List.foldl_nil, roundState, layerType]
    split <;> rfl

/-- Settles O32: the main loop runs the half-rounds in pairs. -/
theorem cryptIsTheHalfRoundSequence : Obligations.CryptIsTheHalfRoundSequence := by
  unfold Obligations.CryptIsTheHalfRoundSequence
  intro tb input rk r hr
  rw [crypt_eq tb input rk r (by omega) (by omega), roundState_eq_foldl]

/-! ## The schedule words that are read -/

theorem rkGroup_congr {rk rk' : Vector Word 68} {n g : Nat} (h : ∀ i, i < n → rkWord rk i = rkWord rk' i)
    (hg : 4 * g + 4 ≤ n) : rkGroup rk (4 * g) = rkGroup rk' (4 * g) := by
  refine rkGroup_eq_of_words fun i hi => ?_
  rw [rkGroup_word _ _ _ hi, h _ (by omega)]

/-- The state after `n` half-rounds depends on the first `n` groups. -/
theorem roundState_congr (tb : Tables) {rk rk' : Vector Word 68} (t : Block) {n : Nat}
    (h : ∀ i, i < 4 * n → rkWord rk i = rkWord rk' i) : roundState tb rk t n = roundState tb rk' t n := by
  induction n with
  | zero => rfl
  | succ n ih =>
    rw [roundState, roundState, ih fun i hi => h i (by omega), rkGroup_congr h (by omega)]

/-- The block operation reads the schedule's own words (rules R20, R89). -/
theorem crypt_congr (tb : Tables) (input : Vector Byte 16) {rk rk' : Vector Word 68} {k : KeySize}
    (hk : k ≠ .unset) (h : ∀ i, i < k.rkWords → rkWord rk i = rkWord rk' i) :
    crypt tb input rk k.rounds = crypt tb input rk' k.rounds := by
  obtain ⟨heven, hpos⟩ := rounds_even_pos hk
  unfold KeySize.rkWords at h
  rw [crypt_eq tb input rk _ heven hpos, crypt_eq tb input rk' _ heven hpos,
    roundState_congr tb (load input) fun i hi => h i (by omega), rkGroup_congr h (by omega),
    rkGroup_congr h (by omega)]

/-- Settles O33, group by group. -/
theorem cryptReadsOnlyTheSchedule : Obligations.CryptReadsOnlyTheSchedule := by
  unfold Obligations.CryptReadsOnlyTheSchedule
  exact fun tb input rk rk' k hk h => crypt_congr tb input hk h

end Sys2Proof.Machine
end

section
/-! The round trip (`spec/42_key_scheduler.md` rule R101): the S-boxes are inverse in pairs, so the two types
of plain substitution undo each other, and each half-round under the derived schedule takes back one of the
encryption. -/

namespace Sys2Proof.Machine

/-! ## S-boxes inverse in pairs -/

/-- `X1` and `X2` undo `S1` and `S2`, and on 256 bytes a left inverse is a right inverse. -/
theorem romTables_sboxes_inverse (i : Byte) :
    look romTables.x1 (look romTables.s1 i) = i ∧ look romTables.s1 (look romTables.x1 i) = i ∧
    look romTables.x2 (look romTables.s2 i) = i ∧ look romTables.s2 (look romTables.x2 i) = i := by
  have hleft1 : Function.LeftInverse (look romTables.x1) (look romTables.s1) :=
    fun i => (look_inverseRows i).1
  have hleft2 : Function.LeftInverse (look romTables.x2) (look romTables.s2) :=
    fun i => (look_inverseRows i).2
  exact ⟨hleft1 i, hleft1.rightInverse_of_card_le le_rfl i, hleft2 i,
    hleft2.rightInverse_of_card_le le_rfl i⟩

/-- Settles O20: the construction gives the printed tables, whose inverse pairs are checked one way. -/
theorem tableBuildGivesThePrintedTables : Obligations.TableBuildGivesThePrintedTables := by
  unfold Obligations.TableBuildGivesThePrintedTables
  exact ⟨tableBuild_eq_romTables rfl rfl rfl, romTables_sboxes_inverse⟩

theorem plainA_outSubstitute (w : Word) : plainA romTables (outSubstitute romTables w) = w := by
  simp only [plainA, outSubstitute, byte3_be32, byte2_be32, byte1_be32, byte0_be32,
    romTables_sboxes_inverse, be32_bytes]

theorem outSubstitute_plainA (w : Word) : outSubstitute romTables (plainA romTables w) = w := by
  simp only [plainA, outSubstitute, byte3_be32, byte2_be32, byte1_be32, byte0_be32,
    romTables_sboxes_inverse, be32_bytes]

/-- The plain S-boxes of two half-rounds of different types undo each other. -/
theorem map_plain_map_plain {n m : Nat} (h : (n + m) % 2 = 1) (x : Block) :
    (x.map (plain romTables (layerType m))).map (plain romTables (layerType n)) = x := by
  rcases Nat.even_or_odd' m with ⟨j, rfl | rfl⟩
  · obtain ⟨i, rfl⟩ : ∃ i, n = 2 * i + 1 := ⟨n / 2, by omega⟩
    simp only [layerType_even, layerType_odd, plain, Block.map, outSubstitute_plainA]
  · obtain ⟨i, rfl⟩ : ∃ i, n = 2 * i := ⟨n / 2, by omega⟩
    simp only [layerType_even, layerType_odd, plain, Block.map, plainA_outSubstitute]

/-! ## The half-rounds backwards -/

theorem block_xor_cancel_right (x y : Block) : (x.xor y).xor y = x := by
  simp only [Block.xor, BitVec.xor_assoc, BitVec.xor_self, BitVec.xor_zero]

theorem load_outTransform (tb : Tables) (t k1 k2 : Block) :
    load (outTransform tb t k1 k2) = ((t.xor k1).map (outSubstitute tb)).xor k2 :=
  Block.ext_words (load_outTransform_word tb t k1 k2 0) (load_outTransform_word tb t k1 k2 1)
    (load_outTransform_word tb t k1 k2 2) (load_outTransform_word tb t k1 k2 3)

/-- The output of the block operation as a block. -/
theorem load_crypt_out (tb : Tables) (input : Vector Byte 16) (rk : Vector Word 68) {r : Nat}
    (heven : r % 2 = 0) (hpos : 0 < r) :
    load (crypt tb input rk r).out =
      (((roundState tb rk (load input) (r - 1)).xor (rkGroup rk (4 * (r - 1)))).map
        (outSubstitute tb)).xor (rkGroup rk (4 * r)) := by
  rw [crypt_eq tb input rk r heven hpos, load_outTransform]

/-- What stands before the S-boxes of half-round `n` under the derived schedule is what stood behind those of
half-round `r - 1 - n` of the encryption. -/
theorem roundState_decKeys (k : KeySize) (hk : k ≠ .unset) (erk old : Vector Word 68) (p : Vector Byte 16)
    (n : Nat) (hn : n < k.rounds) :
    (roundState romTables (decKeys erk k old) (load (crypt romTables p erk k.rounds).out) n).xor
        (rkGroup (decKeys erk k old) (4 * n)) =
      ((roundState romTables erk (load p) (k.rounds - 1 - n)).xor
        (rkGroup erk (4 * (k.rounds - 1 - n)))).map (plain romTables (layerType (k.rounds - 1 - n))) := by
  obtain ⟨heven, hpos⟩ := rounds_even_pos hk
  induction n with
  | zero =>
    have htype : layerType (k.rounds - 1) = .typeB := if_neg (by omega)
    rw [rkGroup_decKeys _ _ _ _ (Nat.zero_le _), if_pos (.inl rfl), roundState,
      load_crypt_out _ _ _ heven hpos, Nat.sub_zero, Nat.sub_zero, block_xor_cancel_right, htype]
    rfl
  | succ n ih =>
    obtain ⟨j, hj⟩ : ∃ j, k.rounds - 1 - n = j + 1 := ⟨k.rounds - 2 - n, by omega⟩
    have hmirror : k.rounds - (n + 1) = j + 1 := by omega
    have hnext : k.rounds - 1 - (n + 1) = j := by omega
    have hinner : ¬(n + 1 = 0 ∨ n + 1 = k.rounds) := by omega
    rw [rkGroup_decKeys _ _ _ _ (by omega), if_neg hinner, hmirror, hnext, roundState,
      halfRound_eq hasFusedTables_romTables, ih (by omega), hj, map_plain_map_plain (by omega), ← diff_xor,
      block_xor_cancel_right, roundState, halfRound_eq hasFusedTables_romTables, diff_diff]

/-- Settles O34: under the derived schedule the half-rounds are taken back one by one, and the output
transformation takes back the first. -/
theorem decryptionScheduleInvertsEncryption : Obligations.DecryptionScheduleInvertsEncryption := by
  unfold Obligations.DecryptionScheduleInvertsEncryption
  intro k erk old p hk
  obtain ⟨heven, hpos⟩ := rounds_even_pos hk
  have hlast := roundState_decKeys k hk erk old p (k.rounds - 1) (by omega)
  have hblock : load (crypt romTables (crypt romTables p erk k.rounds).out (decKeys erk k old) k.rounds).out =
      load p := by
    rw [load_crypt_out _ _ _ heven hpos, hlast, Nat.sub_self, rkGroup_decKeys _ _ _ _ le_rfl,
      if_pos (.inr rfl), Nat.sub_self]
    exact (congrArg (Block.xor · _) (map_plain_map_plain (n := 1) (m := 0) rfl _)).trans
      (block_xor_cancel_right _ _)
  rw [← bytes_load (crypt romTables _ _ _).out, hblock, bytes_load]

/-- Settles O35: the three published vectors are computed. -/
theorem publishedVectorsAreReproduced : Obligations.PublishedVectorsAreReproduced := by
  unfold Obligations.PublishedVectorsAreReproduced
  intro k hk
  cases k with
  | unset => exact absurd rfl hk
  | k128 | k192 | k256 => decide +kernel

end Sys2Proof.Machine
end

section
/-! GF(2^8) (`spec/40_table_builder.md` rules R55, R56, R58): the product is bilinear over XOR, so its laws
are checked on powers of two; and the powers of any generator give the same inverses, hence the same tables. -/

namespace Sys2Proof.Machine

/-! ## Bytes as sums of powers of two -/

/-- The bits of a byte, from bit 0 on, added one by one. -/
def bitSum (b : Byte) (n : Nat) : Byte :=
  (List.range n).foldl (fun x i => if b.getLsbD i then x ^^^ 1#8 <<< i else x) 0

theorem bitSum_eight (b : Byte) : bitSum b 8 = b := by
  revert b
  decide

/-- What holds of 0 and of the powers of two and passes to sums holds of every byte. -/
theorem byte_induction {P : Byte → Prop} (hzero : P 0) (hpow : ∀ i : Fin 8, P (1#8 <<< i.val))
    (hxor : ∀ a b, P a → P b → P (a ^^^ b)) (b : Byte) : P b := by
  have hsum : ∀ n, n ≤ 8 → P (bitSum b n) := by
    intro n hn
    induction n with
    | zero => exact hzero
    | succ n ih =>
      rw [bitSum, List.range_succ, List.foldl_append]
      change P (if b.getLsbD n then bitSum b n ^^^ 1#8 <<< n else bitSum b n)
      split
      · exact hxor _ _ (ih (by omega)) (hpow ⟨n, by omega⟩)
      · exact ih (by omega)
  exact bitSum_eight b ▸ hsum 8 le_rfl

/-! ## The product -/

/-- A word if a bit is 1. -/
def bitTimes (b : Bool) (x : BitVec 9) : BitVec 9 := if b then x else 0

theorem bitTimes_xor_left (a b : Bool) (x : BitVec 9) :
    bitTimes (a ^^ b) x = bitTimes a x ^^^ bitTimes b x := by
  cases a <;> cases b <;> simp [bitTimes]

theorem bitTimes_xor_right (b : Bool) (x y : BitVec 9) :
    bitTimes b (x ^^^ y) = bitTimes b x ^^^ bitTimes b y := by
  cases b <;> simp [bitTimes]

theorem ite_xor_eq_bitTimes (b : Bool) (r x : BitVec 9) :
    (if b = true then r ^^^ x else r) = r ^^^ bitTimes b x := by
  cases b <;> simp [bitTimes]

theorem gfDouble_xor (x y : BitVec 9) : gfDouble (x ^^^ y) = gfDouble x ^^^ gfDouble y := by
  simp only [gfDouble, ite_xor_eq_bitTimes, BitVec.shiftLeft_xor_distrib, BitVec.getLsbD_xor,
    bitTimes_xor_left]
  ac_rfl

/-- The loop of rule R55 is linear in the bits it reads and the sum it starts from. -/
theorem gfMulLoop_xor_right (b c : Byte) (k n : Nat) (r r' aa : BitVec 9) :
    gfMulLoop (b ^^^ c) k n (r ^^^ r') aa = gfMulLoop b k n r aa ^^^ gfMulLoop c k n r' aa := by
  induction k generalizing n r r' aa with
  | zero => rfl
  | succ k ih =>
    simp only [gfMulLoop, ite_xor_eq_bitTimes, BitVec.getLsbD_xor, bitTimes_xor_left, ← ih]
    ac_rfl

/-- The loop of rule R55 is linear in the multiple it adds. -/
theorem gfMulLoop_xor_left (b : Byte) (k n : Nat) (r r' aa aa' : BitVec 9) :
    gfMulLoop b k n (r ^^^ r') (aa ^^^ aa') = gfMulLoop b k n r aa ^^^ gfMulLoop b k n r' aa' := by
  induction k generalizing n r r' aa aa' with
  | zero => rfl
  | succ k ih =>
    simp only [gfMulLoop, ite_xor_eq_bitTimes, bitTimes_xor_right, gfDouble_xor, ← ih]
    ac_rfl

theorem gfMul_xor_right (a b c : Byte) : gfMul a (b ^^^ c) = gfMul a b ^^^ gfMul a c := by
  simp only [gfMul, ← BitVec.setWidth_xor, ← gfMulLoop_xor_right, BitVec.xor_self, BitVec.ofNat_eq_ofNat]

theorem gfMul_xor_left (a b c : Byte) : gfMul (a ^^^ b) c = gfMul a c ^^^ gfMul b c := by
  simp only [gfMul, ← BitVec.setWidth_xor, ← gfMulLoop_xor_left, BitVec.xor_self, BitVec.ofNat_eq_ofNat]

theorem gfMul_zero_right (a : Byte) : gfMul a 0 = 0 := by
  have hzero := gfMul_xor_right a 0 0
  rwa [BitVec.xor_self, BitVec.xor_self] at hzero

theorem gfMul_zero_left (a : Byte) : gfMul 0 a = 0 := by
  have hzero := gfMul_xor_left 0 0 a
  rwa [BitVec.xor_self, BitVec.xor_self] at hzero

/-- Products of powers of two, where the laws of a bilinear product are checked. -/
theorem gfMul_comm_pow : ∀ i j : Fin 8,
    gfMul (1#8 <<< i.val) (1#8 <<< j.val) = gfMul (1#8 <<< j.val) (1#8 <<< i.val) := by
  decide

theorem gfMul_assoc_pow : ∀ i j k : Fin 8,
    gfMul (gfMul (1#8 <<< i.val) (1#8 <<< j.val)) (1#8 <<< k.val) =
      gfMul (1#8 <<< i.val) (gfMul (1#8 <<< j.val) (1#8 <<< k.val)) := by
  decide +kernel

theorem gfMul_comm (a b : Byte) : gfMul a b = gfMul b a := by
  induction a using byte_induction with
  | hzero => rw [gfMul_zero_left, gfMul_zero_right]
  | hxor a a' ha ha' => rw [gfMul_xor_left, gfMul_xor_right, ha, ha']
  | hpow i =>
    induction b using byte_induction with
    | hzero => rw [gfMul_zero_left, gfMul_zero_right]
    | hxor b b' hb hb' => rw [gfMul_xor_left, gfMul_xor_right, hb, hb']
    | hpow j => exact gfMul_comm_pow i j

theorem gfMul_assoc (a b c : Byte) : gfMul (gfMul a b) c = gfMul a (gfMul b c) := by
  induction a using byte_induction with
  | hzero => simp only [gfMul_zero_left]
  | hxor a a' ha ha' => simp only [gfMul_xor_left, ha, ha']
  | hpow i =>
    induction b using byte_induction with
    | hzero => simp only [gfMul_zero_left, gfMul_zero_right]
    | hxor b b' hb hb' => simp only [gfMul_xor_left, gfMul_xor_right, hb, hb']
    | hpow j =>
      induction c using byte_induction with
      | hzero => simp only [gfMul_zero_right]
      | hxor c c' hc hc' => simp only [gfMul_xor_right, hc, hc']
      | hpow k => exact gfMul_assoc_pow i j k

theorem gfMul_one_right (a : Byte) : gfMul a 1 = a := by
  revert a
  decide

theorem gfMul_one_left (a : Byte) : gfMul 1 a = a := by
  rw [gfMul_comm, gfMul_one_right]

/-- Settles O15: the laws from bilinearity, the inverse by rule R59 over the printed tables. -/
theorem gfMulIsAFieldProduct : Obligations.GfMulIsAFieldProduct := by
  unfold Obligations.GfMulIsAFieldProduct
  exact ⟨gfMul_comm, gfMul_xor_right, gfMul_assoc,
    fun a => ⟨gfMul_zero_right a, gfMul_zero_left a, gfMul_one_right a⟩,
    fun a ha => ⟨_, gfMul_inv_rows a ha⟩, by decide⟩

/-! ## Powers -/

theorem expAt_add (g : Byte) (m n : Nat) : expAt g (m + n) = gfMul (expAt g m) (expAt g n) := by
  induction n with
  | zero => exact (gfMul_one_right _).symm
  | succ n ih => rw [← Nat.add_assoc, expAt, ih, expAt, gfMul_assoc]

theorem expAt_one_left (n : Nat) : expAt 1 n = 1 := by
  induction n with
  | zero => rfl
  | succ n ih => rw [expAt, ih, gfMul_one_right]

theorem expAt_expAt (g : Byte) (m n : Nat) : expAt (expAt g m) n = expAt g (m * n) := by
  induction n with
  | zero => rfl
  | succ n ih => rw [expAt, ih, Nat.mul_succ, expAt_add]

/-- A nonzero byte is a power of `GEN`, and `EXP[255]` is 1 (rules R56, R59). -/
theorem expAt_255 {g : Byte} (hg : g ≠ 0) : expAt g 255 = 1 := by
  obtain ⟨n, -, hpow⟩ := isGenerator_gen g hg
  have hgen : expAt gen 255 = 1 := by
    have hentry : look (romTable expRows) 255 = 1 := by decide
    rwa [← buildExp_gen, look_buildExp] at hentry
  rw [← hpow, expAt_expAt, Nat.mul_comm, ← expAt_expAt, hgen, expAt_one_left]

/-- Powers of a nonzero byte depend on the exponent modulo 255. -/
theorem expAt_mod {g : Byte} (hg : g ≠ 0) (n : Nat) : expAt g (n % 255) = expAt g n := by
  have hturns : expAt g (255 * (n / 255)) = 1 := by
    rw [← expAt_expAt, expAt_255 hg, expAt_one_left]
  calc expAt g (n % 255) = gfMul (expAt g (255 * (n / 255))) (expAt g (n % 255)) := by
        rw [hturns, gfMul_one_left]
    _ = expAt g n := by rw [← expAt_add, Nat.div_add_mod]

/-! ## The tables of any generator -/

theorem isGenerator_ne_zero {g : Byte} (hg : IsGenerator g) : g ≠ 0 := by
  have hpow : expAt g 1 ≠ 0 := expAt_ne_zero hg (by decide)
  rwa [expAt, expAt, gfMul_one_left] at hpow

/-- With the tables of a generator `INV` and `POW247` are powers of their argument: `g` to the power
`255 - l` is that of `254 * l` (rules R59, R62). -/
theorem inv_pow247_of_isGenerator {g : Byte} (hg : IsGenerator g) {i : Byte} (hi : i ≠ 0) :
    inv (buildExp g) (buildLog (buildExp g)) i = expAt i 254 ∧
    pow247 (buildExp g) (buildLog (buildExp g)) i = expAt i 247 := by
  obtain ⟨hexp, hrange⟩ := isLogOf_buildLog hg i hi
  rw [inv_of_ne_zero _ _ hi, pow247_of_ne_zero _ _ hi]
  generalize (look (buildLog (buildExp g)) i) = l at hexp hrange
  have hne := isGenerator_ne_zero hg
  have hinv : (255 - l.toNat) % 255 = (l.toNat * 254) % 255 := by omega
  rw [look_buildExp] at hexp
  rw [look_buildExp, look_buildExp, BitVec.toNat_ofNat, BitVec.toNat_ofNat,
    Nat.mod_eq_of_lt (by omega : 255 - l.toNat < 2 ^ 8), Nat.mod_eq_of_lt (by omega : _ < 2 ^ 8), ← hexp,
    expAt_expAt, expAt_expAt, expAt_mod hne, Nat.mul_comm 247, ← expAt_mod hne (255 - l.toNat), hinv,
    expAt_mod hne]
  exact ⟨rfl, rfl⟩

/-- The S-boxes are the same for every generator (rule R58). -/
theorem sboxes_of_isGenerator {g g' : Byte} (hg : IsGenerator g) (hg' : IsGenerator g') (a b : BitMatrix) :
    buildS1 a (buildExp g) (buildLog (buildExp g)) = buildS1 a (buildExp g') (buildLog (buildExp g')) ∧
    buildS2 b (buildExp g) (buildLog (buildExp g)) = buildS2 b (buildExp g') (buildLog (buildExp g')) := by
  have hpowers : ∀ i,
      inv (buildExp g) (buildLog (buildExp g)) i = inv (buildExp g') (buildLog (buildExp g')) i ∧
      pow247 (buildExp g) (buildLog (buildExp g)) i = pow247 (buildExp g') (buildLog (buildExp g')) i := by
    intro i
    by_cases hi : i = 0
    · subst hi
      simp only [inv_zero, pow247_zero, and_self]
    · simp only [inv_pow247_of_isGenerator hg hi, inv_pow247_of_isGenerator hg' hi, and_self]
  exact ⟨by rw [buildS1, buildS1, funext fun i => (hpowers i).1],
    by rw [buildS2, buildS2, funext fun i => (hpowers i).2]⟩

/-- Settles O21: a table build uses the generator tables in the S-boxes only, and those are the same. -/
theorem tablesDoNotDependOnTheGenerator : Obligations.TablesDoNotDependOnTheGenerator := by
  unfold Obligations.TablesDoNotDependOnTheGenerator
  have hany : ∀ (cfg : Config) (g : Byte), IsGenerator cfg.gen → IsGenerator g →
      tableBuild cfg = { tableBuild { cfg with gen := g } with
        exp := (tableBuild cfg).exp, log := (tableBuild cfg).log } := by
    intro cfg g hcfg hg
    obtain ⟨hs1, hs2⟩ := sboxes_of_isGenerator hcfg hg cfg.affA cfg.affB
    simp only [tableBuild, hs1, hs2]
  refine ⟨hany, fun g hg => ?_⟩
  have hdefault := hany { Config.default with gen := g } gen hg isGenerator_gen
  rwa [tableBuild_eq_romTables (cfg := { Config.default with gen := gen }) rfl rfl rfl] at hdefault

end Sys2Proof.Machine
end

section
/-! The affine transforms (`spec/40_table_builder.md` rules R60 and R63): linear for any matrices, so the row
masks are compared on powers of two. -/

namespace Sys2Proof.Machine

theorem affineBit_xor (x y m : Nat → Bool) :
    affineBit (fun k => x k ^^ y k) m = (affineBit x m ^^ affineBit y m) := by
  have hstep : ∀ a b c s s' : Bool, (if a ^^ b then (s ^^ s') ^^ c else s ^^ s') =
      ((if a then s ^^ c else s) ^^ (if b then s' ^^ c else s')) := by decide
  have hfold : ∀ (l : List Nat) (s s' : Bool),
      l.foldl (fun s k => if x k ^^ y k then s ^^ m k else s) (s ^^ s') =
        (l.foldl (fun s k => if x k then s ^^ m k else s) s ^^
          l.foldl (fun s k => if y k then s ^^ m k else s) s') := by
    intro l
    induction l with
    | nil => exact fun _ _ => rfl
    | cons k l ih =>
      intro s s'
      rw [List.foldl_cons, List.foldl_cons, List.foldl_cons, hstep, ih]
  exact hfold (List.range 8) false false

theorem affineByte_xor (f g : Nat → Bool) :
    affineByte (fun j => f j ^^ g j) = affineByte f ^^^ affineByte g := by
  have hbit : ∀ a b : Bool,
      BitVec.ofNat 8 (a ^^ b).toNat = BitVec.ofNat 8 a.toNat ^^^ BitVec.ofNat 8 b.toNat := by decide
  have hfold : ∀ (l : List Nat) (t t' : Byte),
      l.foldl (fun (t : Byte) j => (t <<< 1) ^^^ BitVec.ofNat 8 (f j ^^ g j).toNat) (t ^^^ t') =
        l.foldl (fun (t : Byte) j => (t <<< 1) ^^^ BitVec.ofNat 8 (f j).toNat) t ^^^
          l.foldl (fun (t : Byte) j => (t <<< 1) ^^^ BitVec.ofNat 8 (g j).toNat) t' := by
    intro l
    induction l with
    | nil => exact fun _ _ => rfl
    | cons j l ih =>
      intro t t'
      rw [List.foldl_cons, List.foldl_cons, List.foldl_cons, ← ih, hbit, BitVec.shiftLeft_xor_distrib]
      congr 1
      ac_rfl
  exact hfold (List.range 8) 0 0

theorem affineA_xor (a : BitMatrix) (p q : Byte) : affineA a (p ^^^ q) = affineA a p ^^^ affineA a q := by
  simp only [affineA, BitVec.getLsbD_xor, affineBit_xor, affineByte_xor]

theorem affineB_xor (b : BitMatrix) (p q : Byte) : affineB b (p ^^^ q) = affineB b p ^^^ affineB b q := by
  simp only [affineB, BitVec.getLsbD_xor, affineBit_xor, affineByte_xor]

/-- The parity is the inner sum of an affine transform with an all-one row. -/
theorem parity_eq_affineBit (p : Byte) : parity p = affineBit (fun k => p.getLsbD k) fun _ => true := by
  have hstep : ∀ s b : Bool, (if b then s ^^ true else s) = (s ^^ b) := by decide
  simp only [parity, affineBit, hstep]

theorem parity_and_xor (p q m : Byte) : parity ((p ^^^ q) &&& m) = (parity (p &&& m) ^^ parity (q &&& m)) := by
  have hdistrib : (p ^^^ q) &&& m = (p &&& m) ^^^ (q &&& m) := by
    ext k hk
    simp [Bool.and_xor_distrib_right]
  rw [hdistrib]
  simp only [parity_eq_affineBit, BitVec.getLsbD_xor, affineBit_xor]

/-- Result bit `m` is the parity of the input under row mask `m` (rules R60, R63). -/
theorem affine_eq_parity (p : Byte) : ∀ m : Fin 8,
    (affineA affA p).getLsbD m.val = parity (p &&& rowMaskA.getD m.val 0) ∧
    (affineB affB p).getLsbD m.val = parity (p &&& rowMaskB.getD m.val 0) := by
  induction p using byte_induction with
  | hzero => decide
  | hpow i =>
    revert i
    decide
  | hxor p q hp hq =>
    intro m
    rw [affineA_xor, affineB_xor, BitVec.getLsbD_xor, BitVec.getLsbD_xor, parity_and_xor, parity_and_xor,
      (hp m).1, (hq m).1, (hp m).2, (hq m).2]
    exact ⟨rfl, rfl⟩

/-- Settles O19, from linearity. -/
theorem affineTransformsAreRowParities : Obligations.AffineTransformsAreRowParities := by
  unfold Obligations.AffineTransformsAreRowParities
  exact fun p => ⟨affine_eq_parity p, fun a b q => ⟨affineA_xor a p q, affineB_xor b p q⟩⟩

end Sys2Proof.Machine
end

section
/-! What a command that succeeds does (`spec/43_commands.md` rules R102 to R111), as one function of the
state, and from it the frame of all commands: what a failed one leaves, what each alone may change, and that
`KEYBUF` is read by `SET_KEY` alone. -/

namespace Sys2Proof.Machine

/-! ## The effect of a command -/

/-- The state a command leaves when it succeeds, but for `STATUS.ERR`. -/
def effect (i : Instr) (s : State) : State :=
  match i with
  | .setKeySize size =>
    match KeySize.ofSize size with
    | none => s
    | some k => setContextSize k s
  | .getKeySize => { s with result := BitVec.ofNat 32 s.ksize.bits }
  | .setKey len => { s with
      masterKey := keyBytes s.keybuf len, mkValid := true, encValid := false, decValid := false }
  | .setupEnc => encSetup s
  | .setupDec => decSetup s
  | .encrypt => cryptBlock (ensureEnc s).erk (ensureEnc s)
  | .decrypt => cryptBlock (ensureDec s).drk (ensureDec s)
  | .tblRead sel idx => { s with result := tableEntry s.tables sel idx }
  | .rkRead sched idx => { s with result := rkWord (schedWords s sched) idx }

/-- A command without a cause of an error succeeds with its effect. -/
theorem exec_eq_succeed {i : Instr} {s : State} (hkey : ¬ invalidKeyCause i s)
    (hrange : ¬ outOfRangeCause i s) : exec i s = succeed (effect i s) := by
  cases i with
  | setKeySize size =>
    rcases KeySize.ofSize_cases size with
      ⟨-, hsize⟩ | ⟨-, hsize⟩ | ⟨-, hsize⟩ | ⟨h128, h192, h256, -⟩
    case inr.inr.inr => exact absurd ⟨h128, h192, h256⟩ hkey
    all_goals
      rw [effect, hsize]
      exact execSetKeySize_of_ofSize hsize s
  | getKeySize => rfl
  | setKey len =>
    rcases execSetKey_cases len s with ⟨hcause, -⟩ | ⟨-, -, he⟩
    · exact absurd hcause hkey
    · exact he
  | setupEnc =>
    rcases execSetupEnc_cases s with ⟨hcause, -⟩ | ⟨-, -, he⟩
    · exact absurd hcause hkey
    · exact he
  | setupDec =>
    rcases execSetupDec_cases s with ⟨hcause, -⟩ | ⟨-, -, he⟩
    · exact absurd hcause hkey
    · exact he
  | encrypt =>
    rcases execEncrypt_cases s with ⟨hcause, -⟩ | ⟨-, -, he⟩
    · exact absurd hcause hkey
    · exact he
  | decrypt =>
    rcases execDecrypt_cases s with ⟨hcause, -⟩ | ⟨-, -, he⟩
    · exact absurd hcause hkey
    · exact he
  | tblRead sel idx => rfl
  | rkRead sched idx =>
    rcases execRkRead_cases sched idx s with ⟨habsent, -⟩ | ⟨hvalid, hidx, -⟩ | ⟨-, -, he⟩
    · exact absurd (invalidKeyCause_rkRead.2 habsent) hkey
    · exact absurd ⟨hvalid, hidx⟩ hrange
    · exact he

/-- The three ways a command ends, each with the state it leaves (rules R102, R115). -/
theorem exec_next_cases {i : Instr} {s t : State} (h : exec i s = .next t) :
    (invalidKeyCause i s ∧ t = { afterInvalidKey i s with err := 1 }) ∨
    (outOfRangeCause i s ∧ t = { s with err := 3 }) ∨
    (¬ invalidKeyCause i s ∧ ¬ outOfRangeCause i s ∧ t = { effect i s with err := 0 }) := by
  rcases exec_cases i s with ⟨hkey, -⟩ | ⟨hrange, he⟩ | ⟨hkey, hrange, -⟩
  · exact .inl ⟨hkey, exec_of_invalidKeyCause h hkey⟩
  · exact .inr (.inl ⟨hrange, raise_next (he.symm.trans h)⟩)
  · exact .inr (.inr ⟨hkey, hrange, succeed_next ((exec_eq_succeed hkey hrange).symm.trans h)⟩)

/-- A failed command leaves the state, or it is a rejected size under `clear` and unsets the context. -/
theorem afterInvalidKey_cases (i : Instr) (s : State) :
    ((∃ size, i = .setKeySize size) ∧ s.cfg.ksizeFailPolicy = .clear ∧
      afterInvalidKey i s = setContextSize .unset s) ∨
    (¬ ((∃ size, i = .setKeySize size) ∧ s.cfg.ksizeFailPolicy = .clear) ∧ afterInvalidKey i s = s) := by
  by_cases h : (∃ size, i = .setKeySize size) ∧ s.cfg.ksizeFailPolicy = .clear
  · exact .inl ⟨h.1, h.2, afterInvalidKey_of_clear h⟩
  · exact .inr ⟨h, afterInvalidKey_of_not_clear h⟩

/-- Every command ends in a next state. -/
theorem exec_total (i : Instr) (s : State) : ∃ t, exec i s = .next t := by
  rcases exec_cases i s with ⟨-, he⟩ | ⟨-, he⟩ | ⟨-, -, s', he⟩ <;> exact ⟨_, he⟩

/-- The causes of an error are read off the key size and the valid bits (rules R117, R118). -/
theorem causes_congr (i : Instr) {s s' : State} (hksize : s.ksize = s'.ksize) (hmk : s.mkValid = s'.mkValid)
    (henc : s.encValid = s'.encValid) (hdec : s.decValid = s'.decValid) :
    (invalidKeyCause i s ↔ invalidKeyCause i s') ∧ (outOfRangeCause i s ↔ outOfRangeCause i s') := by
  cases i with
  | rkRead sched => cases sched <;> simp [invalidKeyCause, outOfRangeCause, schedValid, hksize, henc, hdec]
  | _ => simp [invalidKeyCause, outOfRangeCause, hksize, hmk, henc, hdec]

/-- Two states with the same causes end a command in the same way. -/
theorem exec_next_cases_pair {i : Instr} {s s' t t' : State}
    (hkey : invalidKeyCause i s ↔ invalidKeyCause i s')
    (hrange : outOfRangeCause i s ↔ outOfRangeCause i s')
    (h : exec i s = .next t) (h' : exec i s' = .next t') :
    (t = { afterInvalidKey i s with err := 1 } ∧ t' = { afterInvalidKey i s' with err := 1 }) ∨
    (t = { s with err := 3 } ∧ t' = { s' with err := 3 }) ∨
    (¬ invalidKeyCause i s ∧ ¬ outOfRangeCause i s ∧ t = { effect i s with err := 0 } ∧
      t' = { effect i s' with err := 0 }) := by
  rcases exec_cases i s with ⟨hcause, he⟩ | ⟨hcause, he⟩ | ⟨hno, hno', -⟩
  · exact .inl ⟨exec_of_invalidKeyCause h hcause, exec_of_invalidKeyCause h' (hkey.1 hcause)⟩
  · have hfirst := raise_next (he.symm.trans h)
    rcases exec_next_cases h' with ⟨hcause', -⟩ | ⟨-, ht'⟩ | ⟨-, hno', -⟩
    · exact absurd hcause (not_outOfRangeCause_of_invalidKeyCause (hkey.2 hcause'))
    · exact .inr (.inl ⟨hfirst, ht'⟩)
    · exact absurd (hrange.1 hcause) hno'
  · have hrun := exec_eq_succeed hno hno'
    have hrun' := exec_eq_succeed (mt hkey.2 hno) (mt hrange.2 hno')
    exact .inr (.inr ⟨hno, hno', succeed_next (hrun.symm.trans h), succeed_next (hrun'.symm.trans h')⟩)

/-! ## Failed commands -/

/-- Settles O52: an illegal word and a command that fails write the code, and the policy says the rest. -/
theorem failedCommandsChangeOnlyErr : Obligations.FailedCommandsChangeOnlyErr := by
  unfold Obligations.FailedCommandsChangeOnlyErr
  intro c s t h herr
  rcases execute_cases c s with ⟨i, hi, he⟩ | ⟨e, hillegal, he⟩ <;> rw [he] at h
  · have hsize : (∃ size, decodeWith s.cfg.host.opcodes c = .ok (.setKeySize size)) ↔
        ∃ size, i = .setKeySize size := by
      simp only [hi, Except.ok.injEq]
    rw [hsize]
    rcases exec_next_cases h with ⟨-, rfl⟩ | ⟨hrange, rfl⟩ | ⟨-, -, rfl⟩
    · refine ⟨fun hclear => ?_, fun hkept => ?_⟩
      · rw [afterInvalidKey_of_clear hclear]
        rfl
      · rw [afterInvalidKey_of_not_clear hkept]
    · refine ⟨fun ⟨⟨size, hi⟩, _⟩ => ?_, fun _ => rfl⟩
      subst hi
      exact hrange.elim
    · exact absurd rfl herr
  · refine ⟨fun ⟨⟨size, hi⟩, _⟩ => absurd (hillegal.symm.trans hi) (by simp), fun _ => ?_⟩
    rw [raise_next h]

/-! ## The frame -/

@[simp] theorem ensureEnc_drk (s : State) : (ensureEnc s).drk = s.drk := by
  rw [ensureEnc_eq]

@[simp] theorem ensureEnc_fresh (s : State) : (ensureEnc s).fresh = s.fresh := by
  rw [ensureEnc_eq]

theorem encValid_of_ensureEnc_erk_ne {s : State} (h : (ensureEnc s).erk ≠ s.erk) : s.encValid = false := by
  by_contra hvalid
  exact h ((ensureEnc_erk_words s).1 (by simpa using hvalid))

/-- `DecSetup()` where it is needed changes the encryption schedule only by computing an absent one. -/
theorem encValid_of_ensureDec_erk_ne {s : State} (h : (ensureDec s).erk ≠ s.erk) :
    s.encValid = false ∧ (ensureDec s).encValid = true := by
  rcases ensureDec_cases s with ⟨-, he⟩ | ⟨-, he⟩
  · exact absurd (congrArg State.erk he) h
  · rw [he, decSetup_erk] at h
    exact ⟨encValid_of_ensureEnc_erk_ne h, he ▸ decSetup_encValid s⟩

/-- Settles O53, from the effect of each command. -/
theorem commandsChangeOnlyTheirOwnState : Obligations.CommandsChangeOnlyTheirOwnState := by
  unfold Obligations.CommandsChangeOnlyTheirOwnState
  intro i s t h
  rcases exec_next_cases h with ⟨-, rfl⟩ | ⟨-, rfl⟩ | ⟨-, -, rfl⟩
  · rcases afterInvalidKey_cases i s with ⟨⟨size, rfl⟩, -, he⟩ | ⟨-, he⟩ <;> simp [he]
  · simp
  · cases i with
    | setKeySize size => cases hsize : KeySize.ofSize size <;> simp [effect, hsize]
    | getKeySize | setKey | setupEnc | tblRead | rkRead => simp [effect]
    | setupDec | encrypt => simpa [effect] using encValid_of_ensureEnc_erk_ne
    | decrypt => simpa [effect] using encValid_of_ensureDec_erk_ne

/-! ## `KEYBUF` -/

/-- The lazy setups do not read `KEYBUF`. -/
theorem ensureDec_keybuf_update (s : State) (kb : Vector Word 8) :
    ensureEnc { s with keybuf := kb } = { ensureEnc s with keybuf := kb } ∧
    ensureDec { s with keybuf := kb } = { ensureDec s with keybuf := kb } := by
  have henc : ensureEnc { s with keybuf := kb } = { ensureEnc s with keybuf := kb } := by
    unfold ensureEnc
    split <;> rfl
  refine ⟨henc, ?_⟩
  unfold ensureDec decSetup
  rw [henc]
  split <;> rfl

theorem effect_keybuf_update {i : Instr} (hi : ∀ len, i ≠ .setKey len) (s : State) (kb : Vector Word 8) :
    effect i { s with keybuf := kb } = { effect i s with keybuf := kb } := by
  obtain ⟨henc, hdec⟩ := ensureDec_keybuf_update s kb
  cases i with
  | setKeySize size =>
    simp only [effect]
    cases KeySize.ofSize size <;> rfl
  | setKey len => exact absurd rfl (hi len)
  | setupDec =>
    rw [effect, decSetup, henc]
    rfl
  | encrypt =>
    rw [effect, henc]
    rfl
  | decrypt =>
    rw [effect, hdec]
    rfl
  | getKeySize | setupEnc | tblRead => rfl
  | rkRead sched idx => cases sched <;> rfl

theorem afterInvalidKey_keybuf_update (i : Instr) (s : State) (kb : Vector Word 8) :
    afterInvalidKey i { s with keybuf := kb } = { afterInvalidKey i s with keybuf := kb } := by
  rcases afterInvalidKey_cases i s with ⟨hi, hclear, he⟩ | ⟨hkept, he⟩ <;> rw [he]
  · exact afterInvalidKey_of_clear (s := { s with keybuf := kb }) ⟨hi, hclear⟩
  · exact afterInvalidKey_of_not_clear (s := { s with keybuf := kb }) hkept

/-- Settles O54: the causes of an error do not look at `KEYBUF`, and no other effect reads it. -/
theorem keybufMattersToSetKeyAlone : Obligations.KeybufMattersToSetKeyAlone := by
  unfold Obligations.KeybufMattersToSetKeyAlone
  intro i s t kb hi h
  obtain ⟨u, hu⟩ := exec_total i { s with keybuf := kb }
  obtain ⟨hkey, hrange⟩ := causes_congr i (s := s) (s' := { s with keybuf := kb }) rfl rfl rfl rfl
  rw [hu]
  rcases exec_next_cases_pair hkey hrange h hu with ⟨rfl, rfl⟩ | ⟨rfl, rfl⟩ | ⟨-, -, rfl, rfl⟩
  · rw [afterInvalidKey_keybuf_update]
  · rfl
  · rw [effect_keybuf_update hi]

end Sys2Proof.Machine
end

section
/-! The context invariants (`spec/10_state.md` rule R16) under every command and every step, and what they
give: the context state machine (`spec/43_commands.md` rule R114) and the round trip of `ENCRYPT` and
`DECRYPT` (`spec/42_key_scheduler.md` rule R101). -/

namespace Sys2Proof.Machine

/-! ## The schedules' own words -/

/-- The derived schedule depends on the schedule's own words, and not on what the storage held before. -/
theorem rkWord_decKeys_congr {erk erk' : Vector Word 68} {k : KeySize} (old old' : Vector Word 68)
    (h : ∀ i, i < k.rkWords → rkWord erk i = rkWord erk' i) {i : Nat} (hi : i < k.rkWords) :
    rkWord (decKeys erk k old) i = rkWord (decKeys erk' k old') i := by
  have hgroups : scheduleGroups erk (k.rounds + 1) = scheduleGroups erk' (k.rounds + 1) := by
    refine List.map_congr_left fun g hg => rkGroup_congr h ?_
    have hlt := List.mem_range.1 hg
    unfold KeySize.rkWords
    omega
  rw [rkWord_decKeys _ _ _ _ (hi.trans_le (rkWords_le k)), rkWord_decKeys _ _ _ _ (hi.trans_le (rkWords_le k)),
    if_pos hi, if_pos hi, hgroups]

/-! ## The invariants under the setups -/

/-- Without a key and a schedule there is nothing to ask of a context. -/
theorem contextInv_of_absent {s : State} (hmk : s.mkValid = false) (henc : s.encValid = false)
    (hdec : s.decValid = false) : ContextInv s where
  keyNeedsSize h := absurd h (by simp [hmk])
  encNeedsKey h := absurd h (by simp [henc])
  decNeedsEnc h := absurd h (by simp [hdec])
  encDerived h := absurd h (by simp [henc])
  decDerived h := absurd h (by simp [hdec])

/-- A present encryption schedule goes with a size and a key. -/
theorem ContextInv.source {s : State} (h : ContextInv s) (hsource : s.encValid = true ∨ s.mkValid = true) :
    s.mkValid = true ∧ s.ksize ≠ .unset := by
  have hmk : s.mkValid = true := hsource.elim h.encNeedsKey id
  exact ⟨hmk, h.keyNeedsSize hmk⟩

theorem contextInv_encSetup {s : State} (hmk : s.mkValid = true) (hset : s.ksize ≠ .unset) :
    ContextInv (encSetup s) where
  keyNeedsSize _ := hset
  encNeedsKey _ := hmk
  decNeedsEnc h := absurd h (by simp)
  encDerived _ := (encSetup_erk_words s).1
  decDerived h := absurd h (by simp)

theorem ContextInv.keep_ensureEnc {s : State} (h : ContextInv s)
    (hsource : s.encValid = true ∨ s.mkValid = true) :
    ContextInv (ensureEnc s) := by
  obtain ⟨hmk, hset⟩ := h.source hsource
  rcases ensureEnc_cases s with ⟨-, he⟩ | ⟨-, he⟩ <;> rw [he]
  · exact h
  · exact contextInv_encSetup hmk hset

theorem ContextInv.keep_deriveDec {s : State} (h : ContextInv s) (henc : s.encValid = true) :
    ContextInv (deriveDec s) :=
  { h with
    decNeedsEnc := fun _ => henc
    decDerived := fun _ _ hi => rkWord_decKeys_congr (k := s.ksize) _ _ (fun _ _ => rfl) hi }

theorem ContextInv.keep_decSetup {s : State} (h : ContextInv s)
    (hsource : s.encValid = true ∨ s.mkValid = true) :
    ContextInv (decSetup s) :=
  (h.keep_ensureEnc hsource).keep_deriveDec (ensureEnc_encValid s)

theorem ContextInv.keep_ensureDec {s : State} (h : ContextInv s)
    (hsource : s.decValid = true ∨ s.encValid = true ∨ s.mkValid = true) : ContextInv (ensureDec s) := by
  rcases ensureDec_cases s with ⟨-, he⟩ | ⟨habsent, he⟩ <;> rw [he]
  · exact h
  · exact h.keep_decSetup (hsource.resolve_left (by simp [habsent]))

/-! ## The invariants under every command and step -/

theorem effect_setKeySize_cases (size : Nat) (s : State) :
    effect (.setKeySize size) s = s ∨ ∃ k, effect (.setKeySize size) s = setContextSize k s := by
  simp only [effect]
  cases KeySize.ofSize size with
  | none => exact .inl rfl
  | some k => exact .inr ⟨k, rfl⟩

theorem ContextInv.keep_effect {i : Instr} {s : State} (h : ContextInv s) (hkey : ¬ invalidKeyCause i s) :
    ContextInv (effect i s) := by
  cases i with
  | setKeySize size =>
    rcases effect_setKeySize_cases size s with he | ⟨k, he⟩ <;> rw [he]
    · exact h
    · exact contextInv_of_absent rfl rfl rfl
  | getKeySize | tblRead | rkRead => exact { h with }
  | setKey len =>
    obtain ⟨hset, -⟩ := not_or.1 hkey
    exact
      { keyNeedsSize := fun _ => hset
        encNeedsKey := fun henc => by cases henc
        decNeedsEnc := fun hdec => by cases hdec
        encDerived := fun henc => by cases henc
        decDerived := fun hdec => by cases hdec }
  | setupEnc =>
    obtain ⟨hset, hmk⟩ := not_or.1 hkey
    exact contextInv_encSetup (by simpa using hmk) hset
  | setupDec =>
    obtain ⟨-, hsource⟩ := not_or.1 hkey
    exact h.keep_decSetup (by simpa [or_iff_not_imp_left] using hsource)
  | encrypt =>
    obtain ⟨-, hsource⟩ := not_or.1 hkey
    exact { h.keep_ensureEnc (by simpa [or_iff_not_imp_left] using hsource) with }
  | decrypt =>
    obtain ⟨-, hsource⟩ := not_or.1 hkey
    exact { h.keep_ensureDec (by simpa [or_iff_not_imp_left] using hsource) with }

theorem ContextInv.keep_exec {i : Instr} {s t : State} (h : ContextInv s) (he : exec i s = .next t) :
    ContextInv t := by
  rcases exec_next_cases he with ⟨-, rfl⟩ | ⟨-, rfl⟩ | ⟨hkey, -, rfl⟩
  · rcases afterInvalidKey_cases i s with ⟨-, -, hleft⟩ | ⟨-, hleft⟩ <;> rw [hleft]
    · exact contextInv_of_absent rfl rfl rfl
    · exact { h with }
  · exact { h with }
  · exact { h.keep_effect hkey with }

theorem ContextInv.keep_hostWrite {slot : BitVec 5} {v : Word} {s t : State} (h : ContextInv s)
    (he : hostWrite slot v s = .next t) : ContextInv t := by
  rcases hostWrite_cases slot v s with ⟨-, hw⟩ | ⟨k, -, hw⟩ | ⟨k, -, hw⟩ | hw <;> rw [hw] at he
  · rcases execute_cases v s with ⟨i, -, hrun⟩ | ⟨e, -, hrun⟩ <;> rw [hrun] at he
    · exact h.keep_exec he
    · rw [raise_next he]
      exact { h with }
  all_goals
    cases he
    exact { h with }

theorem ContextInv.keep_step {s t : State} (h : ContextInv s) (he : step s = .next t) : ContextInv t := by
  rcases step_cases s with ⟨-, hs⟩ | ⟨slot, v, rest, -, hs⟩ | ⟨slot, rest, -, hs⟩ | ⟨rest, -, hs⟩ <;>
    rw [hs] at he
  · cases he
    exact h
  · exact ContextInv.keep_hostWrite (s := { s with queue := rest }) { h with } he
  · cases he
    exact { h with }
  · cases he
    exact contextInv_of_absent rfl rfl rfl

/-- Settles O55: after reset there is no key and no schedule. -/
theorem resetMeetsTheContextInvariants : Obligations.ResetMeetsTheContextInvariants :=
  contextInv_of_absent rfl rfl rfl

/-- Settles O56, access by access. -/
theorem everyStepKeepsTheContextInvariants : Obligations.EveryStepKeepsTheContextInvariants := by
  unfold Obligations.EveryStepKeepsTheContextInvariants
  exact fun s t h he => h.keep_step he

/-! ## The context states -/

@[simp] theorem ensureEnc_decValid (s : State) : (ensureEnc s).decValid = (s.decValid && s.encValid) := by
  rw [ensureEnc_eq]

@[simp] theorem ensureDec_encValid (s : State) : (ensureDec s).encValid = (s.encValid || !s.decValid) := by
  rw [ensureDec_eq]

/-- Under the invariants the context state gives the key size's presence and all three valid bits (the first
table of rule R114). -/
theorem ContextInv.ctxState_cases {s : State} (h : ContextInv s) :
    (ctxState s = .unset ∧ s.ksize = .unset ∧ s.mkValid = false ∧ s.encValid = false ∧
      s.decValid = false) ∨
    (ctxState s = .sizeSet ∧ s.ksize ≠ .unset ∧ s.mkValid = false ∧ s.encValid = false ∧
      s.decValid = false) ∨
    (ctxState s = .keyStored ∧ s.ksize ≠ .unset ∧ s.mkValid = true ∧ s.encValid = false ∧
      s.decValid = false) ∨
    (ctxState s = .encBuilt ∧ s.ksize ≠ .unset ∧ s.mkValid = true ∧ s.encValid = true ∧
      s.decValid = false) ∨
    (ctxState s = .bothBuilt ∧ s.ksize ≠ .unset ∧ s.mkValid = true ∧ s.encValid = true ∧
      s.decValid = true) := by
  have hsize := h.keyNeedsSize
  have hkey := h.encNeedsKey
  have henc := h.decNeedsEnc
  unfold ctxState
  by_cases hset : s.ksize = .unset
  · simp_all
  · cases hmk : s.mkValid <;> cases he : s.encValid <;> cases hd : s.decValid <;> simp_all

theorem invalidKeyCause_setKeySize {size : Nat} {s : State} :
    invalidKeyCause (.setKeySize size) s ↔ ¬ (size = 128 ∨ size = 192 ∨ size = 256) := by
  simp [invalidKeyCause]

/-! ## The rows of the table with a condition -/

section
variable (policy : FailPolicy) (bits : Nat) (c : CtxState)

theorem transition_setKeySize_accepted {size : Nat} (h : size = 128 ∨ size = 192 ∨ size = 256) :
    transition policy bits (.setKeySize size) c = (.sizeSet, false) := if_pos h

theorem transition_setKeySize_rejected_keep {size : Nat} (h : ¬ (size = 128 ∨ size = 192 ∨ size = 256)) :
    transition .keep bits (.setKeySize size) c = (c, true) := if_neg h

theorem transition_setKeySize_rejected_clear {size : Nat} (h : ¬ (size = 128 ∨ size = 192 ∨ size = 256)) :
    transition .clear bits (.setKeySize size) c = (.unset, true) := if_neg h

theorem transition_setKey_unset (len : Nat) :
    transition policy bits (.setKey len) .unset = (.unset, true) := rfl

theorem transition_setKey_enough {c : CtxState} {len : Nat} (hc : c ≠ .unset) (hlen : bits ≤ len * 8) :
    transition policy bits (.setKey len) c = (.keyStored, false) := by
  cases c with
  | unset => exact absurd rfl hc
  | _ => exact if_pos hlen

theorem transition_setKey_short {c : CtxState} {len : Nat} (hlen : ¬ bits ≤ len * 8) :
    transition policy bits (.setKey len) c = (c, true) := by
  cases c with
  | unset => rfl
  | _ => exact if_neg hlen

/-- `RK_READ` keeps the context state, whatever it answers. -/
theorem transition_rkRead (sched : Sched) (idx : Nat) :
    (transition policy bits (.rkRead sched idx) c).1 = c := by
  cases sched <;> cases c <;> rfl

end

/-- Without a size the context state is `U`, and with one it is another. -/
theorem ctxState_eq_unset_iff {s : State} : ctxState s = .unset ↔ s.ksize = .unset := by
  refine ⟨fun h => ?_, ctxState_of_unset⟩
  by_contra hset
  unfold ctxState at h
  rw [if_neg hset] at h
  split_ifs at h

/-! ## The table against the commands -/

/-- The entries `err` of the table stand exactly at the causes of `InvalidKey` (rules R114, R117). -/
theorem ContextInv.transition_err_iff {s : State} (h : ContextInv s) (i : Instr) (policy : FailPolicy) :
    (transition policy s.ksize.bits i (ctxState s)).2 = true ↔ invalidKeyCause i s := by
  cases i with
  | setKeySize size =>
    rw [invalidKeyCause_setKeySize]
    by_cases hsize : size = 128 ∨ size = 192 ∨ size = 256
    · simp [transition_setKeySize_accepted _ _ _ hsize, hsize]
    · cases policy with
      | keep => simp [transition_setKeySize_rejected_keep _ _ hsize, hsize]
      | clear => simp [transition_setKeySize_rejected_clear _ _ hsize, hsize]
  | getKeySize | tblRead => simp [transition, invalidKeyCause]
  | setKey len =>
    unfold invalidKeyCause
    by_cases hset : s.ksize = .unset
    · simp [ctxState_of_unset hset, transition_setKey_unset, hset]
    · by_cases hlen : s.ksize.bits ≤ len * 8
      · simp [transition_setKey_enough _ _ (mt ctxState_eq_unset_iff.1 hset) hlen, hset, hlen]
      · simp [transition_setKey_short _ _ hlen, Nat.lt_of_not_le hlen]
  | rkRead sched idx =>
    cases sched <;>
      rcases h.ctxState_cases with ⟨hc, hbits⟩ | ⟨hc, hbits⟩ | ⟨hc, hbits⟩ | ⟨hc, hbits⟩ | ⟨hc, hbits⟩ <;>
      simp [transition, invalidKeyCause, hc, hbits]
  | setupEnc | setupDec | encrypt | decrypt =>
    rcases h.ctxState_cases with ⟨hc, hbits⟩ | ⟨hc, hbits⟩ | ⟨hc, hbits⟩ | ⟨hc, hbits⟩ | ⟨hc, hbits⟩ <;>
      simp [transition, invalidKeyCause, hc, hbits]

/-- An entry `err` gives the context state that the failed command leaves. -/
theorem ctxState_afterInvalidKey {i : Instr} {s : State}
    (herr : (transition s.cfg.ksizeFailPolicy s.ksize.bits i (ctxState s)).2 = true) :
    ctxState (afterInvalidKey i s) = (transition s.cfg.ksizeFailPolicy s.ksize.bits i (ctxState s)).1 := by
  cases i with
  | setKeySize size =>
    by_cases hsize : size = 128 ∨ size = 192 ∨ size = 256
    · simp [transition_setKeySize_accepted _ _ _ hsize] at herr
    · rcases failedSize_cases s with ⟨hpolicy, hleft⟩ | ⟨hpolicy, hleft⟩ <;>
        rw [afterInvalidKey, hleft, hpolicy]
      · rw [transition_setKeySize_rejected_keep _ _ hsize]
      · rw [transition_setKeySize_rejected_clear _ _ hsize]
        rfl
  | setKey len =>
    by_cases hset : s.ksize = .unset
    · rw [ctxState_of_unset hset, transition_setKey_unset]
      exact ctxState_of_unset hset
    · by_cases hlen : s.ksize.bits ≤ len * 8
      · simp [transition_setKey_enough _ _ (mt ctxState_eq_unset_iff.1 hset) hlen] at herr
      · rw [transition_setKey_short _ _ hlen]
        rfl
  | rkRead sched idx => exact (transition_rkRead _ _ _ sched idx).symm
  | getKeySize | tblRead => cases herr
  | setupEnc | setupDec | encrypt | decrypt =>
    unfold afterInvalidKey
    cases hc : ctxState s <;> simp [transition, hc] at herr ⊢

/-- The next context state of a command that succeeds. -/
theorem ContextInv.ctxState_effect {s : State} (h : ContextInv s) {i : Instr} (policy : FailPolicy)
    (hkey : ¬ invalidKeyCause i s) :
    ctxState (effect i s) = (transition policy s.ksize.bits i (ctxState s)).1 := by
  cases i with
  | setKeySize size =>
    rw [invalidKeyCause_setKeySize, not_not] at hkey
    rw [transition_setKeySize_accepted _ _ _ hkey]
    rcases hkey with rfl | rfl | rfl <;> rfl
  | getKeySize | tblRead => rfl
  | rkRead sched idx => exact (transition_rkRead policy _ _ sched idx).symm
  | setKey len =>
    obtain ⟨hset, hlen⟩ := not_or.1 hkey
    rw [transition_setKey_enough _ _ (mt ctxState_eq_unset_iff.1 hset) (Nat.le_of_not_lt hlen)]
    simp [ctxState, effect, hset]
  | setupEnc | setupDec | encrypt | decrypt =>
    rcases h.ctxState_cases with ⟨hc, hbits⟩ | ⟨hc, hbits⟩ | ⟨hc, hbits⟩ | ⟨hc, hbits⟩ | ⟨hc, hbits⟩ <;>
      simp [invalidKeyCause, hbits] at hkey <;>
      rw [hc] <;> simp [transition, ctxState, effect, hbits]

/-- Settles O57: a failed command by its entry `err`, a successful one by its effect, and a reset leaves no
size. -/
theorem contextStateMachine : Obligations.ContextStateMachine := by
  unfold Obligations.ContextStateMachine
  refine ⟨fun i s t hinv h => ⟨?_, ?_⟩, fun s rest hqueue => ?_⟩
  · rcases exec_next_cases h with ⟨hcause, rfl⟩ | ⟨hrange, rfl⟩ | ⟨hkey, -, rfl⟩
    · exact ctxState_afterInvalidKey ((hinv.transition_err_iff i _).2 hcause)
    · obtain ⟨sched, idx, rfl, -⟩ := outOfRangeCause_iff.1 hrange
      exact (transition_rkRead _ _ _ sched idx).symm
    · exact hinv.ctxState_effect _ hkey
  · rw [exec_err_eq_one_iff h, hinv.transition_err_iff]
  · refine ⟨resetEvent { s with queue := rest }, ?_, ctxState_of_unset rfl⟩
    rw [step, hqueue]
    rfl

/-! ## Setups issued or run on demand -/

/-- Settles O58: with the schedule present the lazy setup has nothing to do, and every command writes
`STATUS.ERR` anew. -/
theorem lazySetupIsTheSetupIssuedBefore : Obligations.LazySetupIsTheSetupIssuedBefore := by
  unfold Obligations.LazySetupIsTheSetupIssuedBefore
  intro s hset hmk
  refine ⟨fun henc => ⟨{ encSetup s with err := 0 }, ?_, ?_⟩,
    fun hdec => ⟨{ decSetup s with err := 0 }, ?_, ?_⟩⟩
  · exact exec_eq_succeed (i := .setupEnc) (by simp [invalidKeyCause, hset, hmk]) id
  · rw [exec_eq_succeed (i := .encrypt) (s := s) (by simp [invalidKeyCause, hset, hmk]) id,
      exec_eq_succeed (i := .encrypt) (by simp [invalidKeyCause, hset, hmk]) id, effect, effect,
      ensureEnc_of_absent henc, ensureEnc_of_valid (s := { encSetup s with err := 0 }) rfl]
    rfl
  · exact exec_eq_succeed (i := .setupDec) (by simp [invalidKeyCause, hset, hmk]) id
  · rw [exec_eq_succeed (i := .decrypt) (s := s) (by simp [invalidKeyCause, hset, hmk]) id,
      exec_eq_succeed (i := .decrypt) (by simp [invalidKeyCause, hset, hmk]) id, effect, effect,
      ensureDec_of_absent hdec, ensureDec_of_valid (s := { decSetup s with err := 0 }) rfl]
    rfl

/-! ## The round trip through the commands -/

/-- What `DECRYPT` gives from a state with the invariants and an encryption schedule: the block operation under
the schedule derived from it, whether that stood there or is derived first. -/
theorem ContextInv.decrypt_dout {s : State} (h : ContextInv s) (henc : s.encValid = true) :
    (effect .decrypt s).dout =
      load (crypt s.tables s.din.bytes (decKeys s.erk s.ksize s.drk) s.ksize.rounds).out := by
  obtain ⟨-, hset⟩ := h.source (.inl henc)
  have herk : (ensureDec s).erk = s.erk := by
    by_contra hne
    simp [(encValid_of_ensureDec_erk_ne hne).1] at henc
  have hwords : ∀ i, i < s.ksize.rkWords →
      rkWord (ensureDec s).drk i = rkWord (decKeys s.erk s.ksize s.drk) i := by
    intro i hi
    have hderived := (h.keep_ensureDec (.inr (.inl henc))).decDerived (ensureDec_decValid s) i
    rw [contextDecWord, ensureDec_ksize, herk] at hderived
    exact (hderived hi).trans (rkWord_decKeys_congr _ _ (fun _ _ => rfl) hi)
  rw [← crypt_congr s.tables s.din.bytes hset hwords, effect, cryptBlock_ensureDec]

/-- Settles O59: the invariants keep the schedule that encrypted, and the derived one takes the block back. -/
theorem encryptThenDecryptReturnsTheBlock : Obligations.EncryptThenDecryptReturnsTheBlock := by
  unfold Obligations.EncryptThenDecryptReturnsTheBlock
  intro s hinv htables hmk
  have hset : s.ksize ≠ .unset := hinv.keyNeedsSize hmk
  have hencrypt : exec .encrypt s = succeed (effect .encrypt s) :=
    exec_eq_succeed (by simp [invalidKeyCause, hset, hmk]) id
  have hdout : (effect .encrypt s).dout =
      load (crypt romTables s.din.bytes (ensureEnc s).erk s.ksize.rounds).out := by
    rw [effect, cryptBlock_ensureEnc, htables]
  let t : State := { effect .encrypt s with err := 0, din := (effect .encrypt s).dout }
  have ht : ContextInv t := { hinv.keep_exec hencrypt with }
  have htksize : t.ksize = s.ksize := ensureEnc_ksize s
  have httables : t.tables = romTables := (ensureEnc_tables s).trans htables
  have htenc : t.encValid = true := ensureEnc_encValid s
  have hdecrypt : exec .decrypt t = succeed (effect .decrypt t) :=
    exec_eq_succeed (by simp [invalidKeyCause, htksize, hset, htenc]) id
  refine ⟨_, _, hencrypt, rfl, hdecrypt, rfl, ?_⟩
  have hround := ht.decrypt_dout htenc
  have htdin : t.din.bytes = (crypt romTables s.din.bytes (ensureEnc s).erk s.ksize.rounds).out := by
    rw [← bytes_load (crypt romTables _ _ _).out, ← hdout]
  have hterk : t.erk = (ensureEnc s).erk := rfl
  rw [httables, htksize, htdin, hterk, decryptionScheduleInvertsEncryption _ _ _ _ hset, load_bytes] at hround
  exact hround

end Sys2Proof.Machine
end

section
/-! The host port and the step (`spec/20_memory.md` rules R37 to R40, `spec/10_state.md` rules R28 and R35,
`spec/70_reset_and_hazards.md` rule R129): what each access does where no two registers fall together, that
every step ends in a next state, and the reset event. -/

namespace Sys2Proof.Machine

/-! ## A step by the oldest access -/

theorem step_of_idle {s : State} (h : s.queue = []) : step s = .next s := by
  rw [step, h]

theorem step_of_pending {s : State} {a : HostAccess} {rest : List HostAccess} (h : s.queue = a :: rest) :
    step s = perform a { s with queue := rest } := by
  rw [step, h]

/-- Settles O6: the oldest access is the write to `CMD`, which executes its word. -/
theorem stepRunsTheDecodedCommand : Obligations.StepRunsTheDecodedCommand := by
  unfold Obligations.StepRunsTheDecodedCommand
  intro s c i rest
  have hrun : s.queue = .write s.cfg.host.offsets.cmd c :: rest →
      decodeWith s.cfg.host.opcodes c = .ok i → step s = exec i { s with queue := rest } := by
    intro hqueue hdecode
    have hwrite := hostWrite_cmd c { s with queue := rest }
    exact (step_of_pending hqueue).trans (hwrite.trans (execute_of_ok hdecode))
  refine ⟨hrun, fun hhost hqueue hdecode => hrun ?_ ?_⟩
  · rw [hhost]
    exact hqueue
  · rw [decodeWith_of_default (congrArg HostInterface.opcodes hhost)]
    exact hdecode

theorem exec_cfg {i : Instr} {s t : State} (h : exec i s = .next t) : t.cfg = s.cfg := by
  obtain ⟨⟨-, -, -, hcfg, -⟩, -⟩ := commandsChangeOnlyTheirOwnState i s t h
  exact hcfg

theorem execute_total (c : Word) (s : State) : ∃ t, execute c s = .next t ∧ t.cfg = s.cfg := by
  rcases execute_cases c s with ⟨i, -, he⟩ | ⟨e, -, he⟩ <;> rw [he]
  · obtain ⟨t, ht⟩ := exec_total i s
    exact ⟨t, ht, exec_cfg ht⟩
  · exact ⟨_, rfl, rfl⟩

theorem hostWrite_total (slot : BitVec 5) (v : Word) (s : State) :
    ∃ t, hostWrite slot v s = .next t ∧ t.cfg = s.cfg := by
  rcases hostWrite_cases slot v s with ⟨-, he⟩ | ⟨k, -, he⟩ | ⟨k, -, he⟩ | he <;> rw [he]
  · exact execute_total v s
  all_goals exact ⟨_, rfl, rfl⟩

/-- Settles O11: every command ends in a next state, and so does every other access. -/
theorem everyStepAnswersANextState : Obligations.EveryStepAnswersANextState := by
  unfold Obligations.EveryStepAnswersANextState
  refine fun s => ⟨?_, step_of_idle⟩
  rcases step_cases s with ⟨-, he⟩ | ⟨slot, v, rest, -, he⟩ | ⟨slot, rest, -, he⟩ | ⟨rest, -, he⟩ <;> rw [he]
  · exact ⟨s, rfl, rfl⟩
  · exact hostWrite_total slot v { s with queue := rest }
  all_goals exact ⟨_, rfl, rfl⟩

/-! ## Reset -/

/-- Settles O13: the reset state has the tables of the machine's parameters, and its cleared arrays are those
after reset. -/
theorem resetEventPerformsTheSequence : Obligations.ResetEventPerformsTheSequence := by
  unfold Obligations.ResetEventPerformsTheSequence
  intro s rest hqueue
  refine ⟨resetEvent { s with queue := rest }, step_of_pending hqueue, builtTables_eq_tableBuild s.cfg,
    rfl, rfl, rfl, rfl, rfl, fun i => reset_masterKey_getElem i i.isLt, rfl, rfl, rfl, rfl,
    fun k => reset_keybuf_getElem k k.isLt, rfl, rfl, rfl⟩

theorem resetEvent_eq (s : State) :
    resetEvent s = { State.reset with
      tables := tableBuild s.cfg, cfg := s.cfg, fresh := s.fresh, queue := s.queue, replies := s.replies } := by
  rw [resetEvent, State.resetFor, builtTables_eq_tableBuild]

/-- After a reset a rejected size has nothing to clear. -/
theorem failedSize_resetEvent (s : State) : failedSize (resetEvent s) = resetEvent s := by
  rcases failedSize_cases (resetEvent s) with ⟨-, he⟩ | ⟨-, he⟩ <;> rw [he]
  rfl

/-- `SET_KEY_SIZE` right after a reset, with any size (rules R52, R103, R113). -/
theorem exec_setKeySize_resetEvent (size : Nat) (s : State) :
    exec (.setKeySize size) (resetEvent s) = .next { resetEvent s with
      ksize := (if size = 128 then .k128 else if size = 192 then .k192
        else if size = 256 then .k256 else .unset)
      err := (if size = 128 ∨ size = 192 ∨ size = 256 then 0 else 1) } := by
  rcases KeySize.ofSize_cases size with
    ⟨rfl, hsize⟩ | ⟨rfl, hsize⟩ | ⟨rfl, hsize⟩ | ⟨h128, h192, h256, hnone⟩
  case inr.inr.inr =>
    refine (execSetKeySize_of_rejected hnone _).trans ?_
    rw [failedSize_resetEvent]
    simp only [h128, h192, h256, or_self, if_false]
    rfl
  all_goals exact execSetKeySize_of_ofSize hsize _

/-- Settles O14: the two accesses in order, the second on the state the reset leaves. -/
theorem initPseudoInstruction : Obligations.InitPseudoInstruction := by
  unfold Obligations.InitPseudoInstruction
  intro s size rest hsize hdistinct hqueue
  let command := issue s.cfg (.setKeySize size) :: rest
  have hreset : step s = .next (resetEvent { s with queue := command }) := step_of_pending hqueue
  have hset : step (resetEvent { s with queue := command }) =
      exec (.setKeySize size) (resetEvent { s with queue := rest }) :=
    (stepRunsTheDecodedCommand _ _ _ rest).1 rfl
      (decodeWith_encodeWith hdistinct (decide_eq_true hsize))
  rw [exec_setKeySize_resetEvent] at hset
  exact ⟨_, _, hreset, hset, by simp only [resetEvent_eq]⟩

/-! ## The window -/

/-- What a read of a register gives (rule R38). -/
def regValue (s : State) : WindowReg → Word
  | .cmd => 0
  | .status => statusWord s
  | .result => s.result
  | .din k => s.din.word k
  | .dout k => s.dout.word k
  | .keybuf k => s.keybuf[k]?.getD 0
  | .reserved => 0

theorem hostRead_eq (slot : BitVec 5) (s : State) :
    hostRead slot s = regValue s (windowReg s.cfg.host.offsets slot) := by
  unfold hostRead regValue
  cases windowReg s.cfg.host.offsets slot <;> rfl

/-- Slot `k` beyond the first of an array. -/
theorem toNat_slot_sub {first : BitVec 5} {k : Nat} (hk : k < 32) :
    (first + BitVec.ofNat 5 k - first).toNat = k := by
  rw [BitVec.add_comm, BitVec.add_sub_cancel, BitVec.toNat_ofNat, Nat.mod_eq_of_lt hk]

theorem eq_slot_of_toNat_sub {first slot : BitVec 5} {k : Nat} (h : (slot - first).toNat = k) :
    slot = first + BitVec.ofNat 5 k := by
  rw [← h, BitVec.ofNat_toNat, BitVec.setWidth_eq, BitVec.add_comm, BitVec.sub_add_cancel]

/-- The slots at which `CMD`, `DIN` and `KEYBUF` can stand, whatever the offsets. -/
theorem slot_of_windowReg {o : Offsets} {slot : BitVec 5} :
    (windowReg o slot = .cmd → slot = o.cmd) ∧
    (∀ k, windowReg o slot = .din k → slot = o.din + BitVec.ofNat 5 k ∧ k < 4) ∧
    (∀ k, windowReg o slot = .keybuf k → slot = o.keybuf + BitVec.ofNat 5 k ∧ k < 8) := by
  unfold windowReg
  split_ifs with hcmd hstatus hresult hdin hdout hkeybuf
  · simp [hcmd]
  · simp
  · simp
  · refine ⟨by simp, fun k hk => ?_, by simp⟩
    obtain rfl := WindowReg.din.inj hk
    exact ⟨eq_slot_of_toNat_sub rfl, hdin⟩
  · simp
  · refine ⟨by simp, by simp, fun k hk => ?_⟩
    obtain rfl := WindowReg.keybuf.inj hk
    exact ⟨eq_slot_of_toNat_sub rfl, hkeybuf⟩
  · simp

/-- The registers of the arrays, where no two registers fall together. -/
theorem windowReg_arrays {o : Offsets} (h : (registerSlots o).Nodup) (k : Nat) :
    (k < 4 → windowReg o (o.din + BitVec.ofNat 5 k) = .din k) ∧
    (k < 4 → windowReg o (o.dout + BitVec.ofNat 5 k) = .dout k) ∧
    (k < 8 → windowReg o (o.keybuf + BitVec.ofNat 5 k) = .keybuf k) := by
  obtain ⟨-, -, -, hdin, hdout, hkeybuf⟩ := windowReg_registers h
  refine ⟨fun hk => ?_, fun hk => ?_, fun hk => ?_⟩
  · have hoff : (o.din + BitVec.ofNat 5 k - o.din).toNat = k := toNat_slot_sub (by omega)
    rw [hdin _ (by omega), hoff]
  · have hoff : (o.dout + BitVec.ofNat 5 k - o.dout).toNat = k := toNat_slot_sub (by omega)
    rw [hdout _ (by omega), hoff]
  · have hoff : (o.keybuf + BitVec.ofNat 5 k - o.keybuf).toNat = k := toNat_slot_sub (by omega)
    rw [hkeybuf _ (by omega), hoff]

/-- The read-write slots are those of `DIN` and `KEYBUF`, where no two registers fall together. -/
theorem mem_readWrite_iff {o : Offsets} (h : (registerSlots o).Nodup) (slot : BitVec 5) :
    (slot ∈ slotsFrom o.din 4 ↔ ∃ k, windowReg o slot = .din k) ∧
    (slot ∈ slotsFrom o.keybuf 8 ↔ ∃ k, windowReg o slot = .keybuf k) := by
  obtain ⟨-, -, -, hdin, -, hkeybuf⟩ := windowReg_registers h
  rw [mem_slotsFrom (by decide), mem_slotsFrom (by decide)]
  refine ⟨⟨fun hmem => ⟨_, hdin slot hmem⟩, fun ⟨k, hk⟩ => ?_⟩,
    fun hmem => ⟨_, hkeybuf slot hmem⟩, fun ⟨k, hk⟩ => ?_⟩
  · obtain ⟨rfl, hlt⟩ := slot_of_windowReg.2.1 k hk
    rwa [toNat_slot_sub (by omega)]
  · obtain ⟨rfl, hlt⟩ := slot_of_windowReg.2.2 k hk
    rwa [toNat_slot_sub (by omega)]

/-! ## Reading and writing a register -/

theorem hostWrite_din {s : State} {slot : BitVec 5} {k : Nat}
    (h : windowReg s.cfg.host.offsets slot = .din k) (v : Word) :
    hostWrite slot v s = .next { s with din := s.din.setWord k v } := by
  rw [hostWrite, h]

theorem hostWrite_keybuf {s : State} {slot : BitVec 5} {k : Nat}
    (h : windowReg s.cfg.host.offsets slot = .keybuf k) (v : Word) :
    hostWrite slot v s = .next { s with keybuf := s.keybuf.setIfInBounds k v } := by
  rw [hostWrite, h]

theorem word_setWord (b : Block) {k j : Nat} (hk : k < 4) (hj : j < 4) (v : Word) :
    (b.setWord k v).word j = if j = k then v else b.word j := by
  interval_cases k <;> interval_cases j <;> rfl

/-- A write to a slot of `DIN` is read back there and nowhere else. -/
theorem hostRead_din_update {s : State} {slot : BitVec 5} {k : Nat} (v : Word)
    (hreg : windowReg s.cfg.host.offsets slot = .din k) (slot' : BitVec 5) :
    hostRead slot' { s with din := s.din.setWord k v } = if slot' = slot then v else hostRead slot' s := by
  obtain ⟨hslot, hk⟩ := slot_of_windowReg.2.1 k hreg
  rw [hostRead_eq, hostRead_eq]
  by_cases heq : slot' = slot
  · rw [if_pos heq, heq]
    change regValue _ (windowReg s.cfg.host.offsets slot) = v
    rw [hreg]
    exact (word_setWord s.din hk hk v).trans (if_pos rfl)
  · rw [if_neg heq]
    change regValue _ (windowReg s.cfg.host.offsets slot') = _
    cases hreg' : windowReg s.cfg.host.offsets slot' with
    | din j =>
      obtain ⟨hslot', hj⟩ := slot_of_windowReg.2.1 j hreg'
      have hne : j ≠ k := fun hjk => heq (by rw [hslot', hslot, hjk])
      exact (word_setWord s.din hk hj v).trans (if_neg hne)
    | _ => rfl

/-- A write to a slot of `KEYBUF` is read back there and nowhere else. -/
theorem hostRead_keybuf_update {s : State} {slot : BitVec 5} {k : Nat} (v : Word)
    (hreg : windowReg s.cfg.host.offsets slot = .keybuf k) (slot' : BitVec 5) :
    hostRead slot' { s with keybuf := s.keybuf.setIfInBounds k v } =
      if slot' = slot then v else hostRead slot' s := by
  obtain ⟨hslot, hk⟩ := slot_of_windowReg.2.2 k hreg
  rw [hostRead_eq, hostRead_eq]
  by_cases heq : slot' = slot
  · rw [if_pos heq, heq]
    change regValue _ (windowReg s.cfg.host.offsets slot) = v
    rw [hreg]
    simp [regValue, hk]
  · rw [if_neg heq]
    change regValue _ (windowReg s.cfg.host.offsets slot') = _
    cases hreg' : windowReg s.cfg.host.offsets slot' with
    | keybuf j =>
      obtain ⟨hslot', hj⟩ := slot_of_windowReg.2.2 j hreg'
      have hne : k ≠ j := fun hjk => heq (by rw [hslot', hslot, hjk])
      simp [regValue, hj, hne]
    | _ => rfl

/-- Settles O9: the slot written determines its register, and no other slot shows it. -/
theorem windowReadsSeeTheLatestWrite : Obligations.WindowReadsSeeTheLatestWrite := by
  unfold Obligations.WindowReadsSeeTheLatestWrite
  intro s o slot v ho hdistinct hcmd
  subst ho
  obtain ⟨hdin, hkeybuf⟩ := mem_readWrite_iff hdistinct slot
  cases hreg : windowReg s.cfg.host.offsets slot with
  | cmd => exact absurd (slot_of_windowReg.1 hreg) hcmd
  | din k =>
    refine ⟨_, hostWrite_din hreg v, fun slot' => ?_⟩
    simp [hostRead_din_update v hreg, hdin, hreg]
  | keybuf k =>
    refine ⟨_, hostWrite_keybuf hreg v, fun slot' => ?_⟩
    simp [hostRead_keybuf_update v hreg, hkeybuf, hreg]
  | status | result | dout | reserved =>
    exact ⟨s, by simp only [hostWrite, hreg], by simp [hdin, hkeybuf, hreg]⟩

/-- What a write does to a slot that holds no read-write register (rule R38). -/
theorem hostWrite_readOnly {s : State} {slot : BitVec 5} (hdistinct : (registerSlots s.cfg.host.offsets).Nodup)
    (h : slot = s.cfg.host.offsets.status ∨ slot = s.cfg.host.offsets.result ∨
      slot ∈ slotsFrom s.cfg.host.offsets.dout 4 ∨ slot ∉ registerSlots s.cfg.host.offsets) (v : Word) :
    hostWrite slot v s = .next s := by
  obtain ⟨-, hstatus, hresult, -, hdout, -⟩ := windowReg_registers hdistinct
  rcases h with rfl | rfl | hmem | hreserved
  · simp only [hostWrite, hstatus]
  · simp only [hostWrite, hresult]
  · simp only [hostWrite, hdout slot ((mem_slotsFrom (by decide)).1 hmem)]
  · simp only [hostWrite, windowReg_reserved hreserved]

/-- Settles O8: the register at each slot, and what a read or a write of that register does. -/
theorem hostAccessesFollowTheWindow : Obligations.HostAccessesFollowTheWindow := by
  unfold Obligations.HostAccessesFollowTheWindow
  intro s rest
  refine ⟨fun slot hqueue => step_of_pending hqueue, fun slot v hqueue => step_of_pending hqueue, ?window,
    fun hdistinct hset hmk => ?setup, by decide, by decide⟩
  case window =>
    rintro o rfl hdistinct
    obtain ⟨hcmd, hstatus, hresult, -⟩ := windowReg_registers hdistinct
    have hdin := fun k => (windowReg_arrays hdistinct k).1
    have hdout := fun k => (windowReg_arrays hdistinct k).2.1
    have hkeybuf := fun k => (windowReg_arrays hdistinct k).2.2
    have hdin0 := hdin 0 (by decide)
    have hdout0 := hdout 0 (by decide)
    rw [BitVec.add_zero] at hdin0 hdout0
    have hread : ∀ {slot r}, windowReg s.cfg.host.offsets slot = r → hostRead slot s = regValue s r :=
      fun hreg => hreg ▸ hostRead_eq _ s
    refine ⟨hread hcmd, hread hstatus, hread hresult, hread hdin0, hread (hdin 1 (by decide)),
      hread (hdin 2 (by decide)), hread (hdin 3 (by decide)), hread hdout0, hread (hdout 1 (by decide)),
      hread (hdout 2 (by decide)), hread (hdout 3 (by decide)), fun k => ?_,
      fun slot hslot => hread (windowReg_reserved hslot), fun v => hostWrite_cmd v s, hostWrite_din hdin0,
      hostWrite_din (hdin 1 (by decide)), hostWrite_din (hdin 2 (by decide)),
      hostWrite_din (hdin 3 (by decide)),
      fun k v => ?_, fun slot v hslot => hostWrite_readOnly hdistinct hslot v⟩
    · rw [hread (hkeybuf k k.isLt)]
      simp [regValue]
    · have hset : s.keybuf.setIfInBounds k.val v = s.keybuf.set k.val v := by
        ext1 i hi
        rw [Vector.getElem_setIfInBounds, Vector.getElem_set]
      rw [hostWrite_keybuf (hkeybuf k k.isLt), hset]
  case setup =>
    have hrun : hostWrite s.cfg.host.offsets.cmd (encodeWith s.cfg.host.opcodes .setupEnc) s =
        exec .setupEnc s :=
      (hostWrite_cmd _ s).trans (execute_of_ok (decodeWith_encodeWith hdistinct rfl))
    have hsucceeds : exec .setupEnc s = succeed (encSetup s) :=
      exec_eq_succeed (i := .setupEnc) (by simp [invalidKeyCause, hset, hmk]) id
    exact ⟨_, hrun.trans hsucceeds, rfl⟩

/-! ## `STATUS` -/

/-- The fields of a word laid out as rule R28 says. -/
theorem statusWord_fields : ∀ (ks : BitVec 2) (dec enc key : Bool) (err : BitVec 2),
    let w : Word := (0 : BitVec 25) ++ ks ++ BitVec.ofBool dec ++ BitVec.ofBool enc ++ BitVec.ofBool key ++ err
    w.extractLsb' 0 2 = err ∧ w.getLsbD 2 = key ∧ w.getLsbD 3 = enc ∧ w.getLsbD 4 = dec ∧
    w.extractLsb' 5 2 = ks ∧ w.extractLsb' 7 25 = 0 := by
  decide

/-- `STATUS` stands at slot 1 of the default window. -/
theorem windowReg_status_default {s : State} (h : s.cfg.host = HostInterface.default) :
    windowReg s.cfg.host.offsets 1 = .status := by
  rw [h]
  decide

/-- Settles O10: the fields of the word, and the accesses to its slot. -/
theorem statusShowsTheContext : Obligations.StatusShowsTheContext := by
  unfold Obligations.StatusShowsTheContext
  refine ⟨fun s hhost => ?_, rfl, rfl, rfl, statusWord_reset⟩
  have hreg := windowReg_status_default hhost
  have hread : hostRead 1 s = statusWord s := by rw [hostRead_eq, hreg]; rfl
  have hword := statusWord_of_default (congrArg HostInterface.status hhost)
  obtain ⟨herr, hkey, henc, hdec, hks, hrest⟩ :=
    statusWord_fields s.ksize.code s.decValid s.encValid s.mkValid s.err
  rw [← hword] at herr hkey henc hdec hks hrest
  refine ⟨herr, hkey, henc, hdec, hks.trans (by cases s.ksize <;> rfl), hrest, hread, fun v => ?_,
    fun rest hqueue => ?_⟩
  · rw [hostWrite, hreg]
  · rw [step_of_pending hqueue, ← hread]
    rfl

end Sys2Proof.Machine
end

section
/-! What the host can tell apart (`spec/70_reset_and_hazards.md` rule R140): the relation `SameToHost` under
the setups, the commands and the host accesses. -/

namespace Sys2Proof.Machine

/-! ## The setups -/

/-- The words of the encryption schedule are computed from what the relation keeps, once there is a key. -/
theorem SameToHost.contextEncWord_eq {s s' : State} (h : SameToHost s s') (hmk : s.mkValid = true) (i : Nat) :
    contextEncWord s i = contextEncWord s' i := by
  unfold contextEncWord contextVectors
  rw [h.tables, h.cfg, h.ksize, h.masterKey hmk]

theorem SameToHost.keep_encSetup {s s' : State} (h : SameToHost s s') (hmk : s.mkValid = true) :
    SameToHost (encSetup s) (encSetup s') :=
  { h with
    encValid := rfl
    decValid := rfl
    drk := fun hdec => absurd hdec (by simp)
    erk := fun _ i hi => by
      rw [encSetup_ksize] at hi
      rw [(encSetup_erk_words s).1 i hi, (encSetup_erk_words s').1 i (h.ksize ▸ hi),
        h.contextEncWord_eq hmk] }

theorem SameToHost.keep_ensureEnc {s s' : State} (h : SameToHost s s')
    (hsource : s.encValid = true ∨ s.mkValid = true) : SameToHost (ensureEnc s) (ensureEnc s') := by
  rcases ensureEnc_cases s with ⟨hvalid, he⟩ | ⟨habsent, he⟩
  · rw [he, ensureEnc_of_valid (h.encValid ▸ hvalid)]
    exact h
  · rw [he, ensureEnc_of_absent (h.encValid ▸ habsent)]
    exact h.keep_encSetup (hsource.resolve_left (by simp [habsent]))

theorem SameToHost.keep_deriveDec {s s' : State} (h : SameToHost s s') (henc : s.encValid = true) :
    SameToHost (deriveDec s) (deriveDec s') :=
  { h with
    decValid := rfl
    drk := fun _ i hi => by
      rw [deriveDec_ksize] at hi
      rw [deriveDec_drk, deriveDec_drk, ← h.ksize]
      exact rkWord_decKeys_congr _ _ (h.erk henc) hi }

theorem SameToHost.keep_decSetup {s s' : State} (h : SameToHost s s')
    (hsource : s.encValid = true ∨ s.mkValid = true) : SameToHost (decSetup s) (decSetup s') :=
  (h.keep_ensureEnc hsource).keep_deriveDec (ensureEnc_encValid s)

theorem SameToHost.keep_ensureDec {s s' : State} (h : SameToHost s s')
    (hsource : s.decValid = true ∨ s.encValid = true ∨ s.mkValid = true) :
    SameToHost (ensureDec s) (ensureDec s') := by
  rcases ensureDec_cases s with ⟨hvalid, he⟩ | ⟨habsent, he⟩
  · rw [he, ensureDec_of_valid (h.decValid ▸ hvalid)]
    exact h
  · rw [he, ensureDec_of_absent (h.decValid ▸ habsent)]
    exact h.keep_decSetup (hsource.resolve_left (by simp [habsent]))

/-- The block operation shows the host only what the schedule's own words give. -/
theorem SameToHost.keep_cryptBlock {s s' : State} (h : SameToHost s s') (hset : s.ksize ≠ .unset)
    {rk rk' : Vector Word 68} (hwords : ∀ i, i < s.ksize.rkWords → rkWord rk i = rkWord rk' i) :
    SameToHost (cryptBlock rk s) (cryptBlock rk' s') :=
  { h with
    dout := by
      rw [cryptBlock_dout, cryptBlock_dout, ← h.tables, ← h.din, ← h.ksize, crypt_congr _ _ hset hwords] }

/-! ## The commands -/

theorem SameToHost.keep_setContextSize {s s' : State} (h : SameToHost s s') (k : KeySize) :
    SameToHost (setContextSize k s) (setContextSize k s') :=
  { h with
    ksize := rfl, mkValid := rfl, encValid := rfl, decValid := rfl
    masterKey := fun hmk => by cases hmk
    erk := fun henc => by cases henc
    drk := fun hdec => by cases hdec }

theorem SameToHost.keep_effect {i : Instr} {s s' : State} (h : SameToHost s s') (hkey : ¬ invalidKeyCause i s)
    (hrange : ¬ outOfRangeCause i s) : SameToHost (effect i s) (effect i s') := by
  cases i with
  | setKeySize size =>
    simp only [effect]
    cases KeySize.ofSize size with
    | none => exact h
    | some k => exact h.keep_setContextSize k
  | getKeySize => exact { h with result := by rw [effect, effect, h.ksize] }
  | setKey len =>
    exact
      { h with
        mkValid := rfl, encValid := rfl, decValid := rfl
        masterKey := fun _ => by rw [effect, effect, h.keybuf]
        erk := fun henc => by cases henc
        drk := fun hdec => by cases hdec }
  | setupEnc =>
    obtain ⟨-, hmk⟩ := not_or.1 hkey
    exact h.keep_encSetup (by simpa using hmk)
  | setupDec =>
    obtain ⟨-, hsource⟩ := not_or.1 hkey
    exact h.keep_decSetup (by simpa [or_iff_not_imp_left] using hsource)
  | encrypt =>
    obtain ⟨hset, hsource⟩ := not_or.1 hkey
    have henc := h.keep_ensureEnc (by simpa [or_iff_not_imp_left] using hsource)
    exact henc.keep_cryptBlock (by simpa using hset) (henc.erk (ensureEnc_encValid s))
  | decrypt =>
    obtain ⟨hset, hsource⟩ := not_or.1 hkey
    have hdec := h.keep_ensureDec (by simpa [or_iff_not_imp_left] using hsource)
    exact hdec.keep_cryptBlock (by simpa using hset) (hdec.drk (ensureDec_decValid s))
  | tblRead sel idx => exact { h with result := by rw [effect, effect, h.tables] }
  | rkRead sched idx =>
    refine { h with result := ?_ }
    cases sched with
    | erk =>
      have hvalid : s.encValid = true := by simpa [invalidKeyCause] using hkey
      exact h.erk hvalid idx (by simpa [outOfRangeCause, schedValid, hvalid] using hrange)
    | drk =>
      have hvalid : s.decValid = true := by simpa [invalidKeyCause] using hkey
      exact h.drk hvalid idx (by simpa [outOfRangeCause, schedValid, hvalid] using hrange)

theorem SameToHost.keep_err {s s' : State} (h : SameToHost s s') (e : BitVec 2) :
    SameToHost { s with err := e } { s' with err := e } :=
  { h with err := rfl }

theorem SameToHost.keep_afterInvalidKey {s s' : State} (h : SameToHost s s') (i : Instr) :
    SameToHost (afterInvalidKey i s) (afterInvalidKey i s') := by
  rcases afterInvalidKey_cases i s with ⟨hi, hclear, he⟩ | ⟨hkept, he⟩
  · rw [he, afterInvalidKey_of_clear ⟨hi, h.cfg ▸ hclear⟩]
    exact h.keep_setContextSize .unset
  · rw [he, afterInvalidKey_of_not_clear (h.cfg ▸ hkept)]
    exact h

theorem SameToHost.keep_exec {i : Instr} {s s' t t' : State} (h : SameToHost s s') (he : exec i s = .next t)
    (he' : exec i s' = .next t') : SameToHost t t' := by
  obtain ⟨hkey, hrange⟩ := causes_congr i h.ksize h.mkValid h.encValid h.decValid
  rcases exec_next_cases_pair hkey hrange he he' with ⟨rfl, rfl⟩ | ⟨rfl, rfl⟩ | ⟨hno, hno', rfl, rfl⟩
  · exact (h.keep_afterInvalidKey i).keep_err 1
  · exact h.keep_err 3
  · exact (h.keep_effect hno hno').keep_err 0

/-! ## The host accesses -/

theorem SameToHost.keep_execute {c : Word} {s s' t t' : State} (h : SameToHost s s')
    (he : execute c s = .next t) (he' : execute c s' = .next t') : SameToHost t t' := by
  cases hdecode : decodeWith s.cfg.host.opcodes c with
  | ok i =>
    rw [execute_of_ok hdecode] at he
    rw [execute_of_ok (h.cfg ▸ hdecode)] at he'
    exact h.keep_exec he he'
  | error e =>
    rw [execute_of_error hdecode] at he
    rw [execute_of_error (h.cfg ▸ hdecode)] at he'
    rw [raise_next he, raise_next he']
    exact h.keep_err _

/-- Every register reads alike. -/
theorem SameToHost.hostRead_eq {s s' : State} (h : SameToHost s s') (slot : BitVec 5) :
    hostRead slot s = hostRead slot s' := by
  have hstatus : statusWord s = statusWord s' := by
    simp only [statusWord, statusWordIn, h.cfg, h.err, h.mkValid, h.encValid, h.decValid, h.ksize]
  rw [Machine.hostRead_eq, Machine.hostRead_eq, ← h.cfg]
  cases windowReg s.cfg.host.offsets slot <;> simp only [regValue, hstatus, h.result, h.din, h.dout, h.keybuf]

theorem SameToHost.keep_hostWrite {slot : BitVec 5} {v : Word} {s s' t t' : State} (h : SameToHost s s')
    (he : hostWrite slot v s = .next t) (he' : hostWrite slot v s' = .next t') : SameToHost t t' := by
  have hsame : windowReg s'.cfg.host.offsets slot = windowReg s.cfg.host.offsets slot := by rw [h.cfg]
  unfold hostWrite at he he'
  rw [hsame] at he'
  cases hreg : windowReg s.cfg.host.offsets slot <;> simp only [hreg] at he he'
  case cmd => exact h.keep_execute he he'
  case din k =>
    cases he
    cases he'
    exact { h with din := by rw [h.din] }
  case keybuf k =>
    cases he
    cases he'
    exact { h with keybuf := by rw [h.keybuf] }
  all_goals
    cases he
    cases he'
    exact h

theorem SameToHost.keep_readAccess {s s' : State} (h : SameToHost s s') (slot : BitVec 5) :
    SameToHost (readAccess slot s) (readAccess slot s') :=
  { h with replies := by rw [readAccess_replies, readAccess_replies, h.replies, h.hostRead_eq] }

theorem SameToHost.keep_resetEvent {s s' : State} (h : SameToHost s s') :
    SameToHost (resetEvent s) (resetEvent s') := by
  rw [resetEvent, resetEvent, ← h.cfg, ← h.queue, ← h.replies]
  constructor
  case masterKey | erk | drk => exact fun habsent => by cases habsent
  all_goals rfl

theorem SameToHost.keep_perform {a : HostAccess} {s s' t t' : State} (h : SameToHost s s')
    (he : perform a s = .next t) (he' : perform a s' = .next t') : SameToHost t t' := by
  cases a with
  | write slot v => exact h.keep_hostWrite he he'
  | read slot =>
    cases he
    cases he'
    exact h.keep_readAccess slot
  | reset =>
    cases he
    cases he'
    exact h.keep_resetEvent

theorem SameToHost.keep_step {s s' t t' : State} (h : SameToHost s s') (he : step s = .next t)
    (he' : step s' = .next t') : SameToHost t t' := by
  cases hqueue : s.queue with
  | nil =>
    rw [step_of_idle hqueue] at he
    rw [step_of_idle (h.queue ▸ hqueue)] at he'
    cases he
    cases he'
    exact h
  | cons a rest =>
    rw [step_of_pending hqueue] at he
    rw [step_of_pending (h.queue ▸ hqueue)] at he'
    exact SameToHost.keep_perform (s := { s with queue := rest }) (s' := { s' with queue := rest })
      { h with queue := rfl } he he'

/-- Settles O60, access by access. -/
theorem unspecifiedStateIsNeverObserved : Obligations.UnspecifiedStateIsNeverObserved := by
  unfold Obligations.UnspecifiedStateIsNeverObserved
  exact ⟨fun s s' slot h => h.hostRead_eq slot, fun s s' t t' h he he' => h.keep_step he he'⟩

end Sys2Proof.Machine
end

section
/-! The key split and the state vectors (`spec/42_key_scheduler.md` rules R92 to R95). -/

namespace Sys2Proof.Machine

/-! ## The key bytes that are read -/

theorem keyLeft_congr {mk mk' : Vector Byte 32} {n : Nat} (hn : 16 ≤ n)
    (h : ∀ i : Fin 32, i.val < n → mk[i.val] = mk'[i.val]) : keyLeft mk = keyLeft mk' := by
  have hbyte : ∀ i (hi : i < 16), mk[i] = mk'[i] := fun i hi => h ⟨i, by omega⟩ (by simp; omega)
  simp only [keyLeft, hbyte, Nat.reduceLT]

theorem keyRight_congr {mk mk' : Vector Byte 32} {k : KeySize}
    (h : ∀ i : Fin 32, i.val < k.bits / 8 → mk[i.val] = mk'[i.val]) : keyRight mk k = keyRight mk' k := by
  cases k with
  | unset | k128 => rfl
  | k192 =>
    have hbyte : ∀ i (hi : i < 24), mk[i] = mk'[i] :=
      fun i hi => h ⟨i, by omega⟩ (by simpa [KeySize.bits] using hi)
    simp only [keyRight, hbyte, Nat.reduceLT]
  | k256 =>
    have hbyte : ∀ i (hi : i < 32), mk[i] = mk'[i] :=
      fun i hi => h ⟨i, hi⟩ (by simpa [KeySize.bits] using hi)
    simp only [keyRight, hbyte]

/-- Settles O38: the vectors read the key through its two halves. -/
theorem onlyTheDeclaredKeyBytesMatter : Obligations.OnlyTheDeclaredKeyBytesMatter := by
  unfold Obligations.OnlyTheDeclaredKeyBytesMatter
  intro tb cfg mk mk' k hk h
  have hlong : 16 ≤ k.bits / 8 := by
    cases k with
    | unset => exact absurd rfl hk
    | k128 | k192 | k256 => decide
  simp only [keyVectors, keyLeft_congr hlong h, keyRight_congr h]

/-! ## The steps -/

/-! ## The steps -/

theorem krkSet_eq (table : Vector Block 3) (n : Nat) (hn : n < 3) :
    krkSet table (BitVec.ofNat 2 n) = table[n] := by
  have hindex : (BitVec.ofNat 2 n).toNat = n := Nat.mod_eq_of_lt (by omega)
  simp [krkSet, hindex, hn]

/-- The constants of the three steps for each key size (rules R93, R94): the first is chosen by the size, the
next ones follow in a circle. -/
theorem krkSet_order (table : Vector Block 3) :
    (krkSet table (q0 .k128) = table[0] ∧ krkSet table (nextQ (q0 .k128)) = table[1] ∧
      krkSet table (nextQ (nextQ (q0 .k128))) = table[2]) ∧
    (krkSet table (q0 .k192) = table[1] ∧ krkSet table (nextQ (q0 .k192)) = table[2] ∧
      krkSet table (nextQ (nextQ (q0 .k192))) = table[0]) ∧
    (krkSet table (q0 .k256) = table[2] ∧ krkSet table (nextQ (q0 .k256)) = table[0] ∧
      krkSet table (nextQ (nextQ (q0 .k256))) = table[1]) :=
  ⟨⟨krkSet_eq table 0 (by decide), krkSet_eq table 1 (by decide), krkSet_eq table 2 (by decide)⟩,
   ⟨krkSet_eq table 1 (by decide), krkSet_eq table 2 (by decide), krkSet_eq table 0 (by decide)⟩,
   ⟨krkSet_eq table 2 (by decide), krkSet_eq table 0 (by decide), krkSet_eq table 1 (by decide)⟩⟩

/-- The four vectors under either `KS_ORDER`, by the constants and the right half (rules R94, R95). -/
theorem keyVectors_w {tb : Tables} {cfg : Config} {mk : Vector Byte 32} {k : KeySize} {c1 c2 c3 kr : Block}
    (h1 : krkSet cfg.krk (q0 k) = c1) (h2 : krkSet cfg.krk (nextQ (q0 k)) = c2)
    (h3 : krkSet cfg.krk (nextQ (nextQ (q0 k))) = c3) (hkr : keyRight mk k = kr) :
    (cfg.ksOrder = .aba →
      let w1 := (fA tb (keyLeft mk) c1).xor kr
      let w2 := (fB tb w1 c2).xor (keyLeft mk)
      (keyVectors tb cfg mk k).w = #v[keyLeft mk, w1, w2, (fA tb w2 c3).xor w1]) ∧
    (cfg.ksOrder = .bab →
      let w1 := (fB tb (keyLeft mk) c1).xor kr
      let w2 := (fA tb w1 c2).xor (keyLeft mk)
      (keyVectors tb cfg mk k).w = #v[keyLeft mk, w1, w2, (fB tb w2 c3).xor w1]) := by
  subst h1 h2 h3 hkr
  refine ⟨fun horder => ?_, fun horder => ?_⟩ <;> simp only [keyVectors, horder, ksTypes, halfRound]

/-- Settles O37: the constants by the size, the types by the order, and `SETUP_ENC` stores what it computes. -/
theorem stateVectorSteps : Obligations.StateVectorSteps := by
  unfold Obligations.StateVectorSteps
  refine ⟨fun tb cfg mk k c1 c2 c3 kr hsize => ?_, fun s hset hmk => ?_⟩
  · obtain ⟨⟨h1, h2, h3⟩, ⟨h1', h2', h3'⟩, h1'', h2'', h3''⟩ := krkSet_order cfg.krk
    rcases hsize with ⟨rfl, rfl, rfl, rfl, rfl⟩ | ⟨rfl, rfl, rfl, rfl, rfl⟩ | ⟨rfl, rfl, rfl, rfl, rfl⟩
    · exact keyVectors_w h1 h2 h3 rfl
    · exact keyVectors_w h1' h2' h3' rfl
    · exact keyVectors_w h1'' h2'' h3'' rfl
  · exact ⟨_, exec_eq_succeed (i := .setupEnc) (by simp [invalidKeyCause, hset, hmk]) id, rfl⟩

end Sys2Proof.Machine
end
